-- ==== Sys2Proof/Word.lean ====
section
/-! DEFINITION. The word types of the block: the 32-bit command word and binary32 pattern, the byte of a transport, the
16-bit mask of packed booleans, and the arrays of 16 with one entry per channel. -/

namespace Sys2Proof

/-- A 32-bit port value: a command word, or a binary32 kept as its bit pattern (R5, R36). -/
abbrev Word := BitVec 32

/-- A byte of a byte-wide transport. The block itself has none (R27). -/
abbrev Byte := BitVec 8

/-- 16 booleans packed into a word, channel `i` at bit `i` (R26, R27). -/
abbrev Mask := BitVec 16

/-- A channel number, 0 to 15 (R25, R26). -/
abbrev Channel := Fin 16

/-- An array with one entry per channel: the spec's `array[0..15]` (R7, R13). -/
abbrev Bank (α : Type) := Vector α 16

end Sys2Proof
end

