-- ==== Sys2Proof/Config.lean ====
section
/-! DEFINITION. What an implementation fixes (rule R5) and what the spec leaves to it. The two values left open are opaque
constants: nothing can be proved about them, so every claim holds for each value they may take. -/

namespace Sys2Proof.Config

/-- `NCH`, the number of channels, fixed at 16 (R5). -/
def nch : Nat := 16

/-- `RANGE_RESET`: 5.0 (R5). -/
def rangeReset : Word := 0x40A00000

/-- +0.0: the "0" voltage and `LIGHT_OFF` (R5, R62, R64). -/
def plusZero : Word := 0x00000000

/-- 1.0, the bound that `LIGHT_ON` lies above (R5). -/
def one : Word := 0x3F800000

/-- +infinity, the greatest binary32 (R47). -/
def plusInf : Word := 0x7F800000

/-- The default of `LIGHT_ON`: 1.1 (R5). -/
def lightOnDefault : Word := 0x3F8CCCCD

/-- The value an implementation supplies for `LIGHT_ON`, left open (R5, decision D9; log entry 1). Read it through
`Machine.lightOn`, which keeps the bound the spec sets. -/
opaque lightOnParam : Word

/-- The two orders in which a byte-wide transport may carry a 32-bit word (R27). -/
inductive ByteOrder where
  /-- least significant byte first -/
  | little
  /-- most significant byte first -/
  | big
  deriving DecidableEq, Repr, Inhabited

/-- `BYTE_ORDER`, the platform's transport parameter, left open (R27, decision D23; log entry 2). No command depends on it. -/
opaque byteOrder : ByteOrder

end Sys2Proof.Config
end

