-- ==== Sys2Proof/Machine/State.lean ====
section
/-! DEFINITION. The state of the block (rule R13) and, beside it, its environment as plain data: the port levels of the command
last accepted, the response of the command last run, and what the two issuers have still to issue. -/

namespace Sys2Proof.Machine

/-- The two issuers of commands (R83). -/
inductive Issuer where
  /-- the real-time path, the host's audio callback -/
  | realTime
  /-- the control path: menu, reset, randomize, save and load actions -/
  | control
  deriving DecidableEq, Repr

/-- A command as it is issued: the command word and the level of every operand port with it (R6, R19). -/
structure Transaction where
  /-- `CMD` -/
  cmd : Word
  /-- `IN[0..15]`, binary32 patterns -/
  inp : Bank Word
  /-- `DATA`, a binary32 pattern -/
  data : Word
  /-- `RAND`, bit `i` for channel `i` -/
  rand : Mask
  deriving DecidableEq, Repr

/-- The response of a read command (R21). -/
structure Response where
  /-- `RESP_GATES` -/
  gates : Mask
  /-- `RESP_RANGE` -/
  range : Word
  deriving DecidableEq, Repr

/-- What may happen next at the block's boundary. -/
inductive Event where
  /-- this issuer issues its next command (R83) -/
  | issue (who : Issuer)
  /-- power-on reset (R87) -/
  | powerOnReset
  deriving DecidableEq, Repr

/-- The block's state, and its environment as plain data. The first five fields are the tuple of rule R13 and the only state the
spec gives the block; the others are the model's own (log entries 3, 4 and 5). -/
structure State where
  /-- per channel, "previous sample was truthy" (R14) -/
  wasHigh : Bank Bool
  /-- the gate latch array (R15) -/
  gates : Bank Bool
  /-- the full-scale voltage, a binary32 pattern (R16) -/
  range : Word
  /-- the invert setting (R17) -/
  invert : Bool
  /-- the sticky illegal-command flag (R18) -/
  err : Bool
  /-- the input ports (R19), as they stood when the last command was accepted -/
  port : Transaction
  /-- who issued the command last accepted; its response goes there (R21, R83) -/
  grant : Option Issuer
  /-- the response of the command last run (R21); `none` where it returned none -/
  resp : Option Response
  /-- what the real-time path has still to issue, oldest first (R32, R83) -/
  realTime : List Transaction
  /-- what the control path has still to issue, oldest first (R32, R83) -/
  control : List Transaction
  /-- whose turn it is at each coming step, and where a power-on reset falls (R32, R87) -/
  agenda : List Event
  deriving DecidableEq, Repr

/-- No command of the block can fail: "No operation in the real-time path can fail" (R75), every gate operation is total (R61), and
IllegalCommand is a next state (R76). So no fault exists, and nothing raises one. -/
inductive Fault where
  deriving DecidableEq, Repr

/-- The reasons an instruction is refused. -/
inductive Refusal where
  /-- raised only by an arm of `exec` whose instruction has no meaning yet; no arm is one (safe: it would stop the run) -/
  | notModelled (mnemonic : String)
  deriving DecidableEq, Repr

/-- All input ports at zero: the levels before any command (DESIGN CHOICE, log entry 4). -/
def Transaction.quiet : Transaction :=
  { cmd := 0, inp := Vector.replicate 16 Config.plusZero, data := Config.plusZero, rand := 0 }

/-- The state right after power-on reset: the values of rule R87, and an environment with nothing issued (log entries 3 to 5). -/
def State.reset : State :=
  { wasHigh := Vector.replicate 16 false
    gates := Vector.replicate 16 false
    range := Config.rangeReset
    invert := false
    err := false
    port := Transaction.quiet
    grant := none
    resp := none
    realTime := []
    control := []
    agenda := [] }

end Sys2Proof.Machine
end

