-- ==== Sys2Proof/Machine/Flags.lean ====
section
/-! DEFINITION. The block's only two status flags, `invert` and `err` (rules R22, R24), and how each is written. -/

namespace Sys2Proof.Machine

/-- Write `invert` (R17). -/
def State.withInvert (s : State) (b : Bool) : State := { s with invert := b }

/-- Write `err` (R18). -/
def State.withErr (s : State) (b : Bool) : State := { s with err := b }

/-- `s.invert <- not s.invert`, the one way `invert` changes (R24, R67). -/
def State.flipInvert (s : State) : State := s.withInvert (!s.invert)

/-- `s.err <- true`: the flag is sticky, and no command clears it (R18, R76). -/
def State.setErr (s : State) : State := s.withErr true

end Sys2Proof.Machine
end

