-- ==== Sys2Proof/Syntax.lean ====
section
/-! DEFINITION. The eight commands of spec/opcode_table.json, one constructor each, with the fields their command word carries
(rules R37 to R41). Wide operands travel on the ports, not in the word (R36), so they are no part of the syntax. -/

namespace Sys2Proof

/-- A command. Format C commands carry no field, format R a channel, format L the load fields. -/
inductive Instr where
  /-- FRAME: one processing frame (R49) -/
  | frame
  /-- READ_GATE CH (R57) -/
  | readGate (ch : Channel)
  /-- RESET_GATES (R58) -/
  | resetGates
  /-- RANDOMIZE_GATES (R59) -/
  | randomizeGates
  /-- TOGGLE_INVERT (R67) -/
  | toggleInvert
  /-- SET_RANGE (R68) -/
  | setRange
  /-- SAVE_STATE (R70) -/
  | saveState
  /-- LOAD_STATE G R N GBITS (R71); `n` is a count, 0 to 255 when well formed -/
  | loadState (g r : Bool) (n : Nat) (gbits : Mask)
  deriving DecidableEq, Repr

end Sys2Proof
end

