-- ==== Sys2Proof/WellFormed.lean ====
section
/-! DEFINITION. Which instructions a command word can carry. A channel is in 0..15 by its type (R40, R61), so the one check is
that the element count of LOAD_STATE fits its 8-bit field (R39). -/

namespace Sys2Proof

/-- The instruction fits its format's fields (R38, R39). -/
def Instr.wf : Instr → Bool
  | .frame => true
  | .readGate _ => true
  | .resetGates => true
  | .randomizeGates => true
  | .toggleInvert => true
  | .setRange => true
  | .saveState => true
  | .loadState _ _ n _ => decide (n ≤ 255)

/-- `Instr.wf` as a proposition. -/
abbrev WellFormed (i : Instr) : Prop := i.wf = true

end Sys2Proof
end

