-- ==== Sys2Proof/Decode.lean ====
section
/-! DEFINITION. The decoder of rule R42, total on all 2^32 command words, and the encoder written from the formats of rules
R37 to R39. Then the reading of a word from a byte-wide transport (R27), and the host's `decodeTableWord`. -/

namespace Sys2Proof

/-- Why a command word is illegal. The block does not record it (R75, R76); the name is for the reader. -/
inductive IllegalReason where
  /-- opcode 0x0 or 0x9 to 0xF (R43) -/
  | reservedOpcode
  /-- a reserved bit of the opcode's format is set (R44) -/
  | reservedBits
  deriving DecidableEq, Repr

/-- What a command word decodes to: a command, or `Illegal` (R42). -/
inductive Decoded where
  /-- the word is this command -/
  | command (i : Instr)
  /-- the word is no command -/
  | illegal (why : IllegalReason)
  deriving DecidableEq, Repr

/-- `OP = cmd[31:28]` (R36, R40). -/
def opcode (w : Word) : BitVec 4 := w.extractLsb' 28 4

/-- `CH = cmd[3:0]` (R38, R40): every value names a channel. -/
def channelField (w : Word) : Channel := ⟨(w.extractLsb' 0 4).toNat, (w.extractLsb' 0 4).isLt⟩

/-- `G = cmd[27]` (R39, R40). -/
def gatesPresentField (w : Word) : Bool := w.getLsbD 27

/-- `R = cmd[26]` (R39, R40). -/
def rangePresentField (w : Word) : Bool := w.getLsbD 26

/-- `N = zext(cmd[23:16])`, unsigned (R39, R40). -/
def countField (w : Word) : Nat := (w.extractLsb' 16 8).toNat

/-- `GBITS = cmd[15:0]` (R39, R40). -/
def gbitsField (w : Word) : Mask := w.extractLsb' 0 16

/-- Format C: bits 27:0 are reserved (R37, R44). -/
def decodeC (i : Instr) (w : Word) : Decoded :=
  if w.extractLsb' 0 28 = 0 then .command i else .illegal .reservedBits

/-- Format R: bits 27:4 are reserved (R38, R44). -/
def decodeR (mk : Channel → Instr) (w : Word) : Decoded :=
  if w.extractLsb' 4 24 = 0 then .command (mk (channelField w)) else .illegal .reservedBits

/-- Format L: bits 25:24 are reserved (R39, R44). -/
def decodeL (w : Word) : Decoded :=
  if w.extractLsb' 24 2 = 0 then
    .command (.loadState (gatesPresentField w) (rangePresentField w) (countField w) (gbitsField w))
  else .illegal .reservedBits

/-- The decoder: the opcode alone selects the format, then the reserved bits are checked (R41, R42). -/
def decode (w : Word) : Decoded :=
  match (opcode w).toNat with
  | 1 => decodeC .frame w
  | 2 => decodeR .readGate w
  | 3 => decodeC .resetGates w
  | 4 => decodeC .randomizeGates w
  | 5 => decodeC .toggleInvert w
  | 6 => decodeC .setRange w
  | 7 => decodeC .saveState w
  | 8 => decodeL w
  | _ => .illegal .reservedOpcode

/-- Format C: `OOOO 0000…` (R37). -/
def encodeC (op : BitVec 4) : Word := op ++ 0#28

/-- Format R: `OOOO 0000… CCCC` (R38). -/
def encodeR (op : BitVec 4) (ch : Channel) : Word := op ++ 0#24 ++ BitVec.ofNat 4 ch.val

/-- Format L: `OOOO GR00 NNNN NNNN BBBB…` (R39). -/
def encodeL (op : BitVec 4) (g r : Bool) (n : Nat) (gbits : Mask) : Word :=
  op ++ BitVec.ofBool g ++ BitVec.ofBool r ++ 0#2 ++ BitVec.ofNat 8 n ++ gbits

/-- The command word of an instruction (R37 to R41). -/
def encode : Instr → Word
  | .frame => encodeC 0x1
  | .readGate ch => encodeR 0x2 ch
  | .resetGates => encodeC 0x3
  | .randomizeGates => encodeC 0x4
  | .toggleInvert => encodeC 0x5
  | .setRange => encodeC 0x6
  | .saveState => encodeC 0x7
  | .loadState g r n gbits => encodeL 0x8 g r n gbits

/-- The `match` and `mask` of the instruction's row of spec/opcode_table.json. -/
def opcodeRow : Instr → Word × Word
  | .frame => (0x10000000, 0xFFFFFFFF)
  | .readGate _ => (0x20000000, 0xFFFFFFF0)
  | .resetGates => (0x30000000, 0xFFFFFFFF)
  | .randomizeGates => (0x40000000, 0xFFFFFFFF)
  | .toggleInvert => (0x50000000, 0xFFFFFFFF)
  | .setRange => (0x60000000, 0xFFFFFFFF)
  | .saveState => (0x70000000, 0xFFFFFFFF)
  | .loadState _ _ _ _ => (0x80000000, 0xF3000000)

/-- Four bytes of a transport, in the order they arrive, as a word (R27). -/
def wordOfBytes (order : Config.ByteOrder) (a b c d : Byte) : Word :=
  match order with
  | .little => d ++ c ++ b ++ a
  | .big => a ++ b ++ c ++ d

/-- A word as the four bytes a transport carries, first to arrive first (R27). -/
def bytesOfWord (order : Config.ByteOrder) (w : Word) : List Byte :=
  match order with
  | .little => [w.extractLsb' 0 8, w.extractLsb' 8 8, w.extractLsb' 16 8, w.extractLsb' 24 8]
  | .big => [w.extractLsb' 24 8, w.extractLsb' 16 8, w.extractLsb' 8 8, w.extractLsb' 0 8]

/-- What the bytes of a transport give: one whole word decoded and the bytes after it, or no whole word yet. -/
inductive BytesDecoded where
  /-- a whole word, and the bytes that follow it -/
  | word (d : Decoded) (rest : List Byte)
  /-- fewer than four bytes: a command word is always one whole 32-bit word (R29) -/
  | incomplete
  deriving DecidableEq, Repr

/-- Decode the first word of a transport's bytes (R27, R29). -/
def decodeBytes (order : Config.ByteOrder) : List Byte → BytesDecoded
  | a :: b :: c :: d :: rest => .word (decode (wordOfBytes order a b c d)) rest
  | _ => .incomplete

/-- The first word of the platform's transport, in its own byte order, which is left open (R27; log entry 2). -/
def decodeTransport (bytes : List Byte) : BytesDecoded := decodeBytes Config.byteOrder bytes

/-- The command word the host writes down as `nbits` bits of `w`, the bits above `nbits` zero. -/
def tableWord (nbits w : Nat) : Word := BitVec.ofNat 32 (w % 2 ^ nbits)

/-- The instruction the decoder reads from the host's word, if it is one. -/
def decodeTableWord (nbits w : Nat) : Option Instr :=
  match decode (tableWord nbits w) with
  | .command i => some i
  | .illegal _ => none

end Sys2Proof
end

