-- ==== Sys2Proof/Machine/Operands.lean ====
section
/-! DEFINITION. How fields and ports become operands (rules R9, R19, R40, R51), and how 16 booleans are packed into a word and
taken out of one (R26, R27). -/

namespace Sys2Proof.Machine

/-- `isZero32(w)`: the pattern is +0.0 or -0.0, that is `w[30:0] = 0` (R9). -/
def isZero32 (w : Word) : Bool := decide (w.extractLsb' 0 31 = 0)

/-- `truthy(w) = not isZero32(w)` (R51). -/
def truthy (w : Word) : Bool := !isZero32 w

/-- `NEFF = min(N, 16)`: how many gates a load writes (R40). -/
def neff (n : Nat) : Nat := min n Config.nch

/-- The port `IN[i]` (R19), read only by FRAME (R45). -/
def State.inPort (s : State) (i : Channel) : Word := s.port.inp[i]

/-- The port `DATA` (R19), read only by SET_RANGE and by LOAD_STATE with R = 1 (R45). -/
def State.dataPort (s : State) : Word := s.port.data

/-- Bit `i` of the port `RAND` (R19), read only by RANDOMIZE_GATES (R45). -/
def State.randPort (s : State) (i : Channel) : Bool := s.port.rand[i]

/-- Bit `i` of the mask is the entry of channel `i` (R26). -/
def packMask (b : Bank Bool) : Mask := (BitVec.ofBoolListLE b.toList).setWidth 16

/-- The entry of channel `i` is bit `i` of the mask (R26). -/
def unpackMask (m : Mask) : Bank Bool := Vector.ofFn fun i => m[i]

/-- `zext_16` of a boolean (R7, R21). -/
def zext16 (b : Bool) : Mask := (BitVec.ofBool b).setWidth 16

end Sys2Proof.Machine
end

