-- ==== Sys2Proof/Machine/Ops.lean ====
section
/-! DEFINITION. The named operations over the block's state: the writes of each field, the micro-operations EdgeDetect (R52) and
Toggle (R56), the lanes of a frame (R49), the load of the gates (R71), and the one exceptional condition, IllegalCommand (R76). -/

namespace Sys2Proof.Machine

/-- Write the whole edge memory (R14). -/
def State.withWasHigh (s : State) (b : Bank Bool) : State := { s with wasHigh := b }

/-- Write the whole gate latch array (R15). -/
def State.withGates (s : State) (b : Bank Bool) : State := { s with gates := b }

/-- Write `range`, bit for bit: no value is validated or clamped (R16, R69). -/
def State.withRange (s : State) (w : Word) : State := { s with range := w }

/-- `resp <- r` (R8, R21). A command that returns none writes `none`, so no response outlives its command. -/
def State.withResp (s : State) (r : Option Response) : State := { s with resp := r }

/-- `s.wasHigh[i] <- b` (R8). -/
def State.putWasHigh (s : State) (i : Channel) (b : Bool) : State := s.withWasHigh (s.wasHigh.set i b)

/-- `s.gates[i] <- b` (R8). -/
def State.putGate (s : State) (i : Channel) (b : Bool) : State := s.withGates (s.gates.set i b)

/-- `EdgeDetect(i, v)`: whether the sample is a rising edge, and the state with `wasHigh[i]` updated (R52). -/
def edgeDetect (i : Channel) (v : Word) (s : State) : Bool × State :=
  (truthy v && !s.wasHigh[i], s.putWasHigh i (truthy v))

/-- `Toggle(i)`: `s.gates[i] <- not s.gates[i]`, unconditionally (R56). -/
def toggle (i : Channel) (s : State) : State := s.putGate i (!s.gates[i])

/-- One lane of a frame: the edge test, and the toggle on an edge (R49). -/
def frameLane (s : State) (i : Channel) : State :=
  let (e, s') := edgeDetect i (s.inPort i) s
  if e then toggle i s' else s'

/-- The lanes of a frame in the order given. No order can be told from another (R50). -/
def frameLanes (order : List Channel) (s : State) : State := order.foldl frameLane s

/-- `for i in 0..NEFF-1: s.gates[i] <- GBITS[i]`; the gates from NEFF on keep their value (R71). -/
def State.loadGates (s : State) (n : Nat) (gbits : Mask) : State :=
  s.withGates (Vector.ofFn fun i => if i.val < neff n then gbits[i] else s.gates[i])

/-- `raise IllegalCommand()`: `err` is set, the response is none, nothing else changes, no port is read, and the command stream
goes on (R76, R80). There is no vector, no saved state and no mode (R80), and so no return from it either (R81). -/
def raiseIllegalCommand (s : State) : State := s.setErr.withResp none

end Sys2Proof.Machine
end

