-- ==== Sys2Proof/Machine/Frame.lean ====
section
/-! DEFINITION. FRAME, the per-frame command (rule R49). -/

namespace Sys2Proof.Machine

/-- FRAME: for each channel 0 to 15, the edge test and the toggle on an edge (R49). -/
def execFrame (s : State) : Host.Outcome State Fault Refusal :=
  .next ((frameLanes (List.finRange 16) s).withResp none)

end Sys2Proof.Machine
end

