-- ==== Sys2Proof/Machine/Gates.lean ====
section
/-! DEFINITION. The commands of the gate latch array: READ_GATE, RESET_GATES and RANDOMIZE_GATES (rules R57 to R59). -/

namespace Sys2Proof.Machine

/-- READ_GATE CH: the response holds the gate zero-extended to 16 bits, and range 0 (R57). It reads `gates`, not `OUT`. -/
def execReadGate (ch : Channel) (s : State) : Host.Outcome State Fault Refusal :=
  .next (s.withResp (some { gates := zext16 s.gates[ch], range := 0 }))

/-- RESET_GATES: every gate false; `wasHigh` and the settings stay (R58). -/
def execResetGates (s : State) : Host.Outcome State Fault Refusal :=
  .next ((s.withGates (Vector.replicate 16 false)).withResp none)

/-- RANDOMIZE_GATES: `s.gates[i] <- RAND[i]`, for any draw (R59). -/
def execRandomizeGates (s : State) : Host.Outcome State Fault Refusal :=
  .next ((s.withGates (Vector.ofFn fun i => s.randPort i)).withResp none)

end Sys2Proof.Machine
end

