-- ==== Sys2Proof/Machine/Settings.lean ====
section
/-! DEFINITION. The settings commands TOGGLE_INVERT and SET_RANGE (rules R67 to R69). -/

namespace Sys2Proof.Machine

/-- TOGGLE_INVERT: `s.invert <- not s.invert` (R67). -/
def execToggleInvert (s : State) : Host.Outcome State Fault Refusal :=
  .next (s.flipInvert.withResp none)

/-- SET_RANGE: `s.range <- DATA`, bit for bit, every pattern accepted (R68, R69). -/
def execSetRange (s : State) : Host.Outcome State Fault Refusal :=
  .next ((s.withRange s.dataPort).withResp none)

end Sys2Proof.Machine
end

