-- ==== Sys2Proof/Machine/StateAccess.lean ====
section
/-! DEFINITION. The commands that read and write the snapshot (gates, range): SAVE_STATE and LOAD_STATE (rules R70 to R72). -/

namespace Sys2Proof.Machine

/-- SAVE_STATE: the response holds all 16 gates and the range; `invert` is not in it (R70, R72). -/
def execSaveState (s : State) : Host.Outcome State Fault Refusal :=
  .next (s.withResp (some { gates := packMask s.gates, range := s.range }))

/-- LOAD_STATE G R N GBITS: with G the first `min(N, 16)` gates, with R the range from `DATA`; the rest keeps its value (R71). -/
def execLoadState (g r : Bool) (n : Nat) (gbits : Mask) (s : State) : Host.Outcome State Fault Refusal :=
  let s₁ := if g then s.loadGates n gbits else s
  let s₂ := if r then s₁.withRange s.dataPort else s₁
  .next (s₂.withResp none)

end Sys2Proof.Machine
end

