-- ==== Sys2Proof/Machine/Dispatch.lean ====
section
/-! DEFINITION. The meaning of each command, one arm per constructor of Instr. -/

namespace Sys2Proof.Machine

def exec (i : Instr) (s : State) : Host.Outcome State Fault Refusal :=
  match i with
  | .frame => Sys2Proof.Machine.execFrame s
  | .readGate ch => Sys2Proof.Machine.execReadGate ch s
  | .resetGates => Sys2Proof.Machine.execResetGates s
  | .randomizeGates => Sys2Proof.Machine.execRandomizeGates s
  | .toggleInvert => Sys2Proof.Machine.execToggleInvert s
  | .setRange => Sys2Proof.Machine.execSetRange s
  | .saveState => Sys2Proof.Machine.execSaveState s
  | .loadState g r n gbits => Sys2Proof.Machine.execLoadState g r n gbits s

end Sys2Proof.Machine
end

