-- ==== Sys2Proof/Machine/Issue.lean ====
section
/-! DEFINITION. How a command reaches the block: the two issuers' queues, the agenda that says whose turn it is, the acceptance of a
command on the port, an idle step, and power-on reset (rules R6, R32, R83, R87). -/

namespace Sys2Proof.Machine

/-- What this issuer has still to issue, oldest first (R83). -/
def State.queue (s : State) : Issuer → List Transaction
  | .realTime => s.realTime
  | .control => s.control

/-- Write one issuer's queue. -/
def State.withQueue (s : State) (who : Issuer) (q : List Transaction) : State :=
  match who with
  | .realTime => { s with realTime := q }
  | .control => { s with control := q }

/-- Write the agenda. -/
def State.withAgenda (s : State) (a : List Event) : State := { s with agenda := a }

/-- The environment has this issuer issue this command after all it has issued so far, at the agenda's next free turn (R32, R83). -/
def State.offer (s : State) (who : Issuer) (t : Transaction) : State :=
  (s.withQueue who (s.queue who ++ [t])).withAgenda (s.agenda ++ [.issue who])

/-- The port accepts the command `t` of `who`: its word and operands stand on the input ports (R19, R31). -/
def State.accept (s : State) (who : Issuer) (t : Transaction) : State :=
  { s with port := t, grant := some who }

/-- No command is offered: no command runs and none answers; the block's state stays (DESIGN CHOICE, log entry 3). -/
def State.idle (s : State) : State := { s with grant := none, resp := none }

/-- Power-on reset: the values of rule R87; what the issuers have still to issue, and the port levels, are the environment's and
stay (log entry 3). -/
def State.powerOn (s : State) : State :=
  { State.reset with port := s.port, realTime := s.realTime, control := s.control, agenda := s.agenda }

/-- The host's command word with the operand ports as they stand. -/
def State.wordOnPorts (s : State) (w : Word) : Transaction := { s.port with cmd := w }

/-- The real-time path issues `t` before anything else it has to issue, and has the next turn. -/
def State.offerFirst (s : State) (t : Transaction) : State :=
  (s.withQueue .realTime (t :: s.realTime)).withAgenda (.issue .realTime :: s.agenda)

end Sys2Proof.Machine
end

