-- ==== Sys2Proof/Machine/Outputs.lean ====
section
/-! DEFINITION. The output ports, each a function of the state at every instant and none of them a register (rules R20, R62 to R65). -/

namespace Sys2Proof.Machine

/-- The binary32 pattern is a number greater than 1.0: positive, above the pattern of 1.0, and no NaN (R5, R28). -/
def aboveOne (w : Word) : Bool := decide (Config.one.toNat < w.toNat ∧ w.toNat ≤ Config.plusInf.toNat)

/-- `LIGHT_ON`: any binary32 value greater than 1.0 that the implementation supplies, else the default 1.1 (R5, D9; log entry 1). -/
def lightOn : Word := if aboveOne Config.lightOnParam then Config.lightOnParam else Config.lightOnDefault

/-- `OUT[i] = (gates[i] xor invert) ? range : +0.0` (R62). -/
def State.out (s : State) (i : Channel) : Word :=
  if s.gates[i] ^^ s.invert then s.range else Config.plusZero

/-- `OUT_CHANNELS`, 5 bits, hardwired to 16 (R63). -/
def State.outChannels (_s : State) : BitVec 5 := BitVec.ofNat 5 Config.nch

/-- The indicator of channel `i` for a given value of `LIGHT_ON` (R64). -/
def State.lightAt (s : State) (on : Word) (i : Channel) : Word :=
  if s.gates[i] then on else Config.plusZero

/-- `LIGHT[i] = gates[i] ? LIGHT_ON : +0.0` (R64). -/
def State.light (s : State) (i : Channel) : Word := s.lightAt lightOn i

/-- `ERR_OUT = err` (R18, R20). -/
def State.errOut (s : State) : Bool := s.err

end Sys2Proof.Machine
end

