-- ==== Sys2Proof/Machine/Run.lean ====
section
/-! DEFINITION. What the block does next: the word on the command port, decoded and run, and what the agenda has happen at a step
(rules R6, R31, R32, R42, R87). -/

namespace Sys2Proof.Machine

/-- Run the word on the command port: decode it, then the command's meaning, or IllegalCommand (R42, R76, R79). -/
def runWord (w : Word) (s : State) : Host.Outcome State Fault Refusal :=
  match decode w with
  | .command i => exec i s
  | .illegal _ => .next (raiseIllegalCommand s)

/-- Accept this issuer's command and run it: one atomic step (R31). -/
def serve (who : Issuer) (t : Transaction) (s : State) : Host.Outcome State Fault Refusal :=
  runWord t.cmd (s.accept who t)

/-- What the agenda has happen next: the command of the issuer whose turn it is, a power-on reset, or nothing where no command is
offered (R32, R83, R87). -/
def advance (s : State) : Host.Outcome State Fault Refusal :=
  match s.agenda with
  | [] => .next s.idle
  | .powerOnReset :: rest => .next (s.withAgenda rest).powerOn
  | .issue who :: rest =>
    match s.queue who with
    | [] => .next (s.withAgenda rest).idle
    | t :: later => serve who t ((s.withAgenda rest).withQueue who later)

end Sys2Proof.Machine
end

