-- ==== Sys2Proof/Machine/Step.lean ====
section
/-! DEFINITION. One step of the machine, and the host's placing of an instruction as the next to run. -/

namespace Sys2Proof.Machine

/-- One step (R6, R31, R32). -/
def step (s : State) : Host.Outcome State Fault Refusal := advance s

/-- The host's instruction, issued next by the real-time path, with the operand ports as they stand (log entry 3). -/
def State.withFetchWord (s : State) (nbits w : Nat) : State :=
  s.offerFirst (s.wordOnPorts (tableWord nbits w))

end Sys2Proof.Machine
end

