-- ==== Sys2Proof/Machine/Assembler.lean ====
section
/-! DEFINITION. The assembler of rules R47 and R48: values, command lines, pseudo-instructions and their expansions, each line giving
the commands it issues. It only builds commands; it has no part in what the block does (decision D25). -/

namespace Sys2Proof.Machine

/-- The binary32 magnitude (bits 30:0) nearest to `num / den`, a tie going to the even pattern and a value past the greatest finite
one to infinity (R47; IEEE 754's default rounding, log entry 6). -/
def nearestMagnitude (num den : Nat) : Nat :=
  if num = 0 then 0 else
    let e₀ : Int := (Nat.log2 num : Int) - (Nat.log2 den : Int)
    let below : Bool := decide (num * 2 ^ (-e₀).toNat < den * 2 ^ e₀.toNat)
    let e : Int := max (if below then e₀ - 1 else e₀) (-126)
    let n := num * 2 ^ (23 - e).toNat
    let d := den * 2 ^ (e - 23).toNat
    let up : Bool := decide (d < 2 * (n % d) ∨ 2 * (n % d) = d ∧ n / d % 2 = 1)
    min ((e + 126).toNat * 2 ^ 23 + n / d + up.toNat) Config.plusInf.toNat

/-- A value of the assembler (R47). -/
inductive Value where
  /-- a 32-bit pattern, `0xHHHHHHHH` -/
  | pattern (w : Word)
  /-- the decimal `digits / 10^places`, with its sign: `-0.0` is `decimal true 0 1` -/
  | decimal (negative : Bool) (digits places : Nat)
  /-- `nan` -/
  | nan
  /-- `inf` -/
  | inf
  deriving DecidableEq, Repr

/-- The pattern a value stands for: a decimal is rounded to the nearest binary32 (R47). -/
def Value.word : Value → Word
  | .pattern w => w
  | .decimal negative digits places =>
    BitVec.ofBool negative ++ BitVec.ofNat 31 (nearestMagnitude digits (10 ^ places))
  | .nan => 0x7FC00000
  | .inf => 0x7F800000

/-- 1.0, the level of HOLD and PULSE (R48). -/
def Value.one : Value := .decimal false 10 1

/-- The preset 5.0 (R48). -/
def Value.five : Value := .decimal false 50 1

/-- The preset 10.0 (R48). -/
def Value.ten : Value := .decimal false 100 1

/-- One line of the assembler: a command with its operands (R47) or a pseudo-instruction (R48). -/
inductive AsmLine where
  /-- `FRAME v0, v1, ..., v15` -/
  | frame (vs : Bank Value)
  /-- the sparse FRAME: the listed channels get their value, every other channel +0.0 -/
  | frameSparse (entries : List (Channel × Value))
  /-- `READ_GATE c` -/
  | readGate (c : Channel)
  /-- `RESET_GATES` -/
  | resetGates
  /-- `RANDOMIZE_GATES 0xHHHH` -/
  | randomizeGates (draw : Mask)
  /-- `TOGGLE_INVERT` -/
  | toggleInvert
  /-- `SET_RANGE v` -/
  | setRange (v : Value)
  /-- `SAVE_STATE` -/
  | saveState
  /-- `LOAD_STATE`, with `gates=N:0xHHHH` and `range=v` each given or not -/
  | loadState (gates : Option (BitVec 8 × Mask)) (range : Option Value)
  /-- `.word 0xHHHHHHHH` -/
  | rawWord (w : Word)
  /-- `IDLE` -/
  | idle
  /-- `HOLD c` -/
  | hold (c : Channel)
  /-- `PULSE c` -/
  | pulse (c : Channel)
  /-- `RANGE5` -/
  | range5
  /-- `RANGE10` -/
  | range10
  /-- `RESTORE 0xHHHH, v` -/
  | restore (gates : Mask) (v : Value)
  deriving DecidableEq, Repr

/-- A command word with every operand port +0.0 or 0, as `.word` has them (R47; log entry 8). -/
def bareCommand (w : Word) : Transaction := { Transaction.quiet with cmd := w }

/-- FRAME on these sixteen inputs (R47). -/
def frameCommand (inp : Bank Word) : Transaction := { bareCommand (encode .frame) with inp := inp }

/-- The inputs of a sparse FRAME (R47). -/
def sparseInputs (entries : List (Channel × Value)) : Bank Word :=
  Vector.ofFn fun i => ((entries.lookup i).map Value.word).getD Config.plusZero

/-- SET_RANGE with this `DATA` (R47). -/
def setRangeCommand (v : Value) : Transaction := { bareCommand (encode .setRange) with data := v.word }

/-- LOAD_STATE with the parts given; a part left out has its fields and `DATA` zero, as in table V-ENC (R47). -/
def loadCommand (gates : Option (BitVec 8 × Mask)) (range : Option Value) : Transaction :=
  { bareCommand (encode (.loadState gates.isSome range.isSome (gates.getD (0, 0)).1.toNat (gates.getD (0, 0)).2)) with
    data := (range.map Value.word).getD Config.plusZero }

/-- The commands a line issues, in order (R47, R48); none for a sparse FRAME that lists a channel twice, which rule R47 does not
describe (log entry 8). -/
def AsmLine.assemble : AsmLine → Option (List Transaction)
  | .frame vs => some [frameCommand (vs.map Value.word)]
  | .frameSparse entries =>
    if (entries.map Prod.fst).Nodup then some [frameCommand (sparseInputs entries)] else none
  | .readGate c => some [bareCommand (encode (.readGate c))]
  | .resetGates => some [bareCommand (encode .resetGates)]
  | .randomizeGates draw => some [{ bareCommand (encode .randomizeGates) with rand := draw }]
  | .toggleInvert => some [bareCommand (encode .toggleInvert)]
  | .setRange v => some [setRangeCommand v]
  | .saveState => some [bareCommand (encode .saveState)]
  | .loadState gates range => some [loadCommand gates range]
  | .rawWord w => some [bareCommand w]
  | .idle => some [frameCommand (sparseInputs [])]
  | .hold c => some [frameCommand (sparseInputs [(c, Value.one)])]
  | .pulse c => some [frameCommand (sparseInputs [(c, Value.one)]), frameCommand (sparseInputs [])]
  | .range5 => some [setRangeCommand Value.five]
  | .range10 => some [setRangeCommand Value.ten]
  | .restore gates v => some [loadCommand (some (16, gates)) (some v)]

end Sys2Proof.Machine
end

