-- ==== Sys2Proof/Machine/AsmText.lean ====
section
/-! DEFINITION. The written form of the assembler's lines (rules R47 and R48): one command per line, `;` starting a comment. Where
rule R47 is silent on the spelling (blanks, the case of hexadecimal digits, leading zeros, decimals without a point), what is accepted
is the model's choice (DESIGN CHOICE, log entry 8). -/

namespace Sys2Proof.Machine

/-- The pieces of a line. -/
inductive Token where
  /-- a run of characters that are neither blank nor punctuation -/
  | text (cs : List Char)
  /-- `,` -/
  | comma
  /-- `:` -/
  | colon
  /-- `=` -/
  | equals
  /-- the left brace -/
  | lbrace
  /-- the right brace -/
  | rbrace
  deriving DecidableEq, Repr

/-- Put the characters gathered so far (last first) before the tokens that follow. -/
def flushText (acc : List Char) (rest : List Token) : List Token :=
  if acc.isEmpty then rest else .text acc.reverse :: rest

/-- The punctuation a character is, if any; 123 and 125 are the braces. -/
def punctuation (c : Char) : Option Token :=
  if c = ',' then some .comma
  else if c = ':' then some .colon
  else if c = '=' then some .equals
  else if c.toNat = 123 then some .lbrace
  else if c.toNat = 125 then some .rbrace
  else none

/-- Cut a line into tokens; `;` ends it (R47). A blank is a space or a tab; blanks separate texts and may stand anywhere around
punctuation, or be left out there: R47 does not say where blanks may stand (DESIGN CHOICE, log entry 8). -/
def lex (acc : List Char) : List Char → List Token
  | [] => flushText acc []
  | c :: cs =>
    if c = ';' then flushText acc []
    else if c = ' ' ∨ c = '\t' then flushText acc (lex [] cs)
    else match punctuation c with
      | some t => flushText acc (t :: lex [] cs)
      | none => lex (c :: acc) cs

/-- The value of a decimal or hexadecimal digit, capital or small: R47 shows capitals and does not give the case (DESIGN CHOICE, log
entry 8). -/
def digitValue (c : Char) : Option Nat :=
  if 48 ≤ c.toNat ∧ c.toNat ≤ 57 then some (c.toNat - 48)
  else if 65 ≤ c.toNat ∧ c.toNat ≤ 70 then some (c.toNat - 55)
  else if 97 ≤ c.toNat ∧ c.toNat ≤ 102 then some (c.toNat - 87)
  else none

/-- Read digits in a base, onto a value read so far. -/
def readDigits (base : Nat) (soFar : Nat) : List Char → Option Nat
  | [] => some soFar
  | c :: cs =>
    match digitValue c with
    | some d => if d < base then readDigits base (soFar * base + d) cs else none
    | none => none

/-- A number in decimal, at least one digit; leading zeros are accepted (DESIGN CHOICE, log entry 8). -/
def readNat (cs : List Char) : Option Nat := if cs.isEmpty then none else readDigits 10 0 cs

/-- `0x` and exactly `k` hexadecimal digits, as R47 writes patterns and masks; fewer or more are not accepted (DESIGN CHOICE, log
entry 8). -/
def readHex (k : Nat) : List Char → Option Nat
  | '0' :: 'x' :: ds => if ds.length = k then readDigits 16 0 ds else none
  | _ => none

/-- A decimal without its sign: digits, a point, digits (R47); or digits alone (DESIGN CHOICE, log entry 8). -/
def readDecimal (negative : Bool) (cs : List Char) : Option Value :=
  let whole := cs.takeWhile (· ≠ '.')
  match cs.dropWhile (· ≠ '.') with
  | [] => (readNat whole).map fun n => .decimal negative n 0
  | _ :: fraction =>
    if whole.isEmpty ∨ fraction.isEmpty then none
    else (readNat (whole ++ fraction)).map fun n => .decimal negative n fraction.length

/-- A value: `nan`, `inf`, a pattern or a decimal (R47). -/
def readValue (cs : List Char) : Option Value :=
  if cs = "nan".toList then some .nan
  else if cs = "inf".toList then some .inf
  else match readHex 8 cs with
    | some n => some (.pattern (BitVec.ofNat 32 n))
    | none => match cs with
      | '-' :: ds => readDecimal true ds
      | ds => readDecimal false ds

/-- A channel, decimal 0 to 15 (R47). -/
def readChannel (cs : List Char) : Option Channel :=
  match readNat cs with
  | some n => if h : n < 16 then some ⟨n, h⟩ else none
  | none => none

/-- An element count, decimal 0 to 255 (R39, R47). -/
def readCount (cs : List Char) : Option (BitVec 8) :=
  match readNat cs with
  | some n => if n ≤ 255 then some (BitVec.ofNat 8 n) else none
  | none => none

/-- A 16-bit mask, `0xHHHH` (R47). -/
def readMask (cs : List Char) : Option Mask := (readHex 4 cs).map (BitVec.ofNat 16)

/-- Values separated by commas. -/
def readValues : List Token → Option (List Value)
  | [.text v] => (readValue v).map fun x => [x]
  | .text v :: .comma :: rest =>
    match readValue v, readValues rest with
    | some x, some xs => some (x :: xs)
    | _, _ => none
  | _ => none

/-- `c: v` entries separated by commas, up to the right brace. -/
def readEntries : List Token → Option (List (Channel × Value))
  | [.text c, .colon, .text v, .rbrace] =>
    match readChannel c, readValue v with
    | some i, some x => some [(i, x)]
    | _, _ => none
  | .text c :: .colon :: .text v :: .comma :: rest =>
    match readChannel c, readValue v, readEntries rest with
    | some i, some x, some xs => some ((i, x) :: xs)
    | _, _, _ => none
  | _ => none

/-- The operands of FRAME: exactly 16 values, or the sparse form (R47). -/
def readFrame : List Token → Option AsmLine
  | [.lbrace, .rbrace] => some (.frameSparse [])
  | .lbrace :: rest => (readEntries rest).map .frameSparse
  | rest =>
    match readValues rest with
    | some vs => if h : vs.length = 16 then some (.frame ⟨vs.toArray, by simpa using h⟩) else none
    | none => none

/-- The operands of LOAD_STATE: `gates=N:0xHHHH`, `range=v`, both or neither, in R47's order; `range` before `gates` is not accepted
(DESIGN CHOICE, log entry 8). -/
def readLoad : List Token → Option AsmLine
  | [] => some (.loadState none none)
  | [.text k, .equals, .text v] =>
    if k = "range".toList then (readValue v).map fun x => .loadState none (some x) else none
  | [.text k, .equals, .text n, .colon, .text m] =>
    if k = "gates".toList then
      match readCount n, readMask m with
      | some n, some m => some (.loadState (some (n, m)) none)
      | _, _ => none
    else none
  | [.text k, .equals, .text n, .colon, .text m, .comma, .text k', .equals, .text v] =>
    if k = "gates".toList ∧ k' = "range".toList then
      match readCount n, readMask m, readValue v with
      | some n, some m, some x => some (.loadState (some (n, m)) (some x))
      | _, _, _ => none
    else none
  | _ => none

/-- A line with one operand. -/
def readOne (name operand : List Char) : Option AsmLine :=
  if name = "READ_GATE".toList then (readChannel operand).map .readGate
  else if name = "RANDOMIZE_GATES".toList then (readMask operand).map .randomizeGates
  else if name = "SET_RANGE".toList then (readValue operand).map .setRange
  else if name = ".word".toList then (readHex 8 operand).map fun n => .rawWord (BitVec.ofNat 32 n)
  else if name = "HOLD".toList then (readChannel operand).map .hold
  else if name = "PULSE".toList then (readChannel operand).map .pulse
  else none

/-- A line with no operand. -/
def readBare (name : List Char) : Option AsmLine :=
  if name = "RESET_GATES".toList then some .resetGates
  else if name = "TOGGLE_INVERT".toList then some .toggleInvert
  else if name = "SAVE_STATE".toList then some .saveState
  else if name = "IDLE".toList then some .idle
  else if name = "RANGE5".toList then some .range5
  else if name = "RANGE10".toList then some .range10
  else none

/-- The command of a line's tokens. -/
def readTokens : List Token → Option AsmLine
  | .text name :: rest =>
    if name = "FRAME".toList then readFrame rest
    else if name = "LOAD_STATE".toList then readLoad rest
    else match rest with
      | [] => readBare name
      | [.text a] => readOne name a
      | [.text m, .comma, .text v] =>
        if name = "RESTORE".toList then
          match readMask m, readValue v with
          | some m, some x => some (.restore m x)
          | _, _ => none
        else none
      | _ => none
  | _ => none

/-- What a written line is. -/
inductive LineRead where
  /-- nothing, or only a comment -/
  | blank
  /-- a command or pseudo-instruction -/
  | line (l : AsmLine)
  /-- not a line of the assembler -/
  | bad
  deriving DecidableEq, Repr

/-- Read one written line (R47, R48). -/
def readLine (text : String) : LineRead :=
  match lex [] text.toList with
  | [] => .blank
  | ts => match readTokens ts with
    | some l => .line l
    | none => .bad

end Sys2Proof.Machine
end

