-- ==== Sys2Proof/Machine/Codec.lean ====
section
/-! DEFINITION. How a persisted document drives LOAD_STATE and what a save writes, as rule R74 fixes it. The document's text format
is outside the block (R4), so a document here is its two optional fields with their values. -/

namespace Sys2Proof.Machine

/-- The persisted document of rule R74: each field may be absent; unknown fields are ignored, so none stands here. -/
structure Document where
  /-- `gates`: a sequence of booleans of any length -/
  gates : Option (List Bool)
  /-- `range`, as a binary32 pattern -/
  range : Option Word
  deriving DecidableEq, Repr

/-- `GBITS[i]` = element `i` for `i < min(N, 16)` (R74). The bits from `min(N, 16)` on, where a document has fewer than 16 elements, are
0: R74 gives them no value (DESIGN CHOICE, log entry 7), and the block ignores them (R45). -/
def gbitsOf (elems : List Bool) : Mask := packMask (Vector.ofFn fun i : Fin 16 => elems.getD i.val false)

/-- The LOAD_STATE a document stands for: G and R say which fields it has, N is the number of elements, at most 255 (R74). -/
def Document.instr (d : Document) : Instr :=
  .loadState d.gates.isSome d.range.isSome (min (d.gates.getD []).length 255) (gbitsOf (d.gates.getD []))

/-- The command that loads a document, `DATA` carrying its range (R74; log entry 7 for the ports it leaves unsaid). -/
def Document.loadCommand (d : Document) : Transaction :=
  { Transaction.quiet with cmd := encode d.instr, data := d.range.getD Config.plusZero }

/-- Loading a document that may be missing. A missing document is LOAD_STATE with G = R = 0, which rule R74 and decision D26 call
equivalent to issuing no command. -/
def loadDocument (d : Option Document) : Transaction := (d.getD { gates := none, range := none }).loadCommand

/-- A save issues SAVE_STATE (R74). -/
def saveCommand : Transaction := { Transaction.quiet with cmd := encode .saveState }

/-- A save writes all 16 gates and the range of the response (R74). -/
def savedDocument (r : Response) : Document :=
  { gates := some (unpackMask r.gates).toList, range := some r.range }

end Sys2Proof.Machine
end

