-- ==== Sys2Proof/Safety.lean ====
section
/-! DEFINITION. The terms in which claims about the machine are stated: runs without an illegal command (R76), the duties of the
environment (R83), what a response is worth (R31), the serial order of commands (R32), and what a command may read (R45). -/

namespace Sys2Proof.Machine

/-- The word on `CMD` is a command (R42). -/
def Transaction.legal (t : Transaction) : Bool :=
  match decode t.cmd with
  | .command _ => true
  | .illegal _ => false

/-- No illegal command was issued, and none stands in a queue: the premise `err = false` of rule R76. -/
abbrev State.clean (s : State) : Prop :=
  s.err = false ∧ (∀ t ∈ s.realTime, t.legal = true) ∧ ∀ t ∈ s.control, t.legal = true

/-- The word of FRAME (R49). -/
def Transaction.isFrame (t : Transaction) : Bool := decide (t.cmd = 0x10000000)

/-- Each issuer keeps to the commands rule R83 gives its path: FRAME on the real-time path, every other command on the control path.
The block does not ask for it (R82). -/
abbrev State.pathsSplit (s : State) : Prop :=
  (∀ t ∈ s.realTime, t.isFrame = true) ∧ ∀ t ∈ s.control, t.isFrame = false

/-- The value rule R21 has the command return in this state, and none for a command that returns none. -/
def responseOf (i : Instr) (s : State) : Option Response :=
  match i with
  | .readGate ch => some { gates := zext16 s.gates[ch], range := 0 }
  | .saveState => some { gates := packMask s.gates, range := s.range }
  | .frame => none
  | .resetGates => none
  | .randomizeGates => none
  | .toggleInvert => none
  | .setRange => none
  | .loadState _ _ _ _ => none

/-- A response is that of the command on the port, with the gates and the range of this one state: never torn, never stale (R21, R31).
Where none stands there is nothing to check. -/
abbrev State.answered (s : State) : Prop :=
  ∀ r, s.resp = some r →
    s.grant.isSome = true ∧ ∃ i, decode s.port.cmd = .command i ∧ responseOf i s = some r

/-- The command the port accepts at the next step, if one is offered (R32). -/
def State.offered (s : State) : Option (Issuer × Transaction) :=
  match s.agenda with
  | .issue who :: _ => (s.queue who).head?.map fun t => (who, t)
  | _ => none

/-- The next step is a power-on reset (R87). -/
def State.powersOn (s : State) : Bool := decide (s.agenda.head? = some .powerOnReset)

/-- The commands of a serial order that one issuer issued, in that order (R32). -/
def issuedBy (who : Issuer) (order : List (Issuer × Transaction)) : List Transaction :=
  (order.filter fun p => p.1 = who).map Prod.snd

/-- Run commands one after another in a serial order (R32). -/
def serially : List (Issuer × Transaction) → State → Host.Outcome State Fault Refusal
  | [], s => .next s
  | (who, t) :: rest, s =>
    match serve who t s with
    | .next s' => serially rest s'
    | .fault r => .fault r
    | .refused r => .refused r

/-- The input ports with these sixteen values on `IN` (R19). -/
def State.withInputs (s : State) (inp : Bank Word) : State := { s with port := { s.port with inp := inp } }

/-- Run one FRAME on each of these inputs, in order. -/
def runFrames : List (Bank Word) → State → Host.Outcome State Fault Refusal
  | [], s => .next s
  | v :: vs, s =>
    match exec .frame (s.withInputs v) with
    | .next t => runFrames vs t
    | .fault r => .fault r
    | .refused r => .refused r

/-- What the edge detector of channel `i` reports at each of a sequence of FRAMEs (R52, R54). -/
def edgeReports (i : Channel) : List (Bank Word) → State → List Bool
  | [], _ => []
  | v :: vs, s =>
    match exec .frame (s.withInputs v) with
    | .next t => (edgeDetect i v[i] s).1 :: edgeReports i vs t
    | .fault _ => []
    | .refused _ => []

/-- Two port pictures agree on the operand ports this command reads (R45). -/
def portsAgree (i : Instr) (p q : Transaction) : Prop :=
  match i with
  | .frame => p.inp = q.inp
  | .randomizeGates => p.rand = q.rand
  | .setRange => p.data = q.data
  | .loadState _ r _ _ => r = true → p.data = q.data
  | .readGate _ => True
  | .resetGates => True
  | .toggleInvert => True
  | .saveState => True

/-- The state with another picture on its ports. -/
def State.withPort (s : State) (p : Transaction) : State := { s with port := p }

/-- The state with another issuer as the one that issued the command. -/
def State.withGrant (s : State) (who : Option Issuer) : State := { s with grant := who }

end Sys2Proof.Machine
end

