-- ==== Sys2Proof/Certificates/Slice0/Obligations.lean ====
section
/-! DEFINITION. The statements about the model, each from a numbered rule of spec/ or from several. OBLIGATIONS.json lists them. -/

open Sys2Proof
open Sys2Proof.Machine

/-! ## Encoding -/

/-- R37 to R44, table V-ENC: words written out from the formats decode to the command they stand for, or to none. -/
def Obligations.DecodedWords : Prop :=
  decode 0b00010000000000000000000000000000 = .command .frame ∧
  decode 0b00100000000000000000000000001100 = .command (.readGate 12) ∧
  decode 0b00110000000000000000000000000000 = .command .resetGates ∧
  decode 0b01000000000000000000000000000000 = .command .randomizeGates ∧
  decode 0b01010000000000000000000000000000 = .command .toggleInvert ∧
  decode 0b01100000000000000000000000000000 = .command .setRange ∧
  decode 0b01110000000000000000000000000000 = .command .saveState ∧
  decode 0b10001000000010100000001111111111 = .command (.loadState true false 10 0x03FF) ∧
  decode 0x83FFFFFF = .illegal .reservedBits ∧
  decode 0x00000000 = .illegal .reservedOpcode

/-- Every well-formed instruction, with every operand its fields admit, decodes from its own word. -/
def Obligations.DecodeOfEncode : Prop :=
  ∀ i : Instr, WellFormed i → decode (encode i) = .command i

/-- Each word has one meaning: a word that decodes to a command is that command's encoding, and the command is well formed. -/
def Obligations.EncodeOfDecode : Prop :=
  ∀ (w : Word) (i : Instr), decode w = .command i → encode i = w ∧ WellFormed i

/-- R43, R44: a word with a reserved opcode, or with a reserved bit of its opcode's format set, sets `err`, returns none and changes
nothing else; every other word runs as some command. -/
def Obligations.IllegalWordsExactly : Prop :=
  ∀ (w : Word) (s : State),
    if (w >>> 28 = 0 ∨ 9 ≤ (w >>> 28).toNat)
        ∨ ((w >>> 28 = 1 ∨ w >>> 28 = 3 ∨ w >>> 28 = 4 ∨ w >>> 28 = 5 ∨ w >>> 28 = 6 ∨ w >>> 28 = 7)
            ∧ w &&& 0x0FFFFFFF ≠ 0)
        ∨ (w >>> 28 = 2 ∧ w &&& 0x0FFFFFF0 ≠ 0)
        ∨ (w >>> 28 = 8 ∧ w &&& 0x03000000 ≠ 0)
    then runWord w s = .next { s with err := true, resp := none }
    else ∃ i, decode w = .command i ∧ runWord w s = exec i s

/-- Either byte order carries a command word over a byte transport unchanged, and a part of a word is not decoded (R29). R27 leaves
BYTE_ORDER open: that there are two orders, and which bytes they name, is the model's choice (log entry 2). -/
def Obligations.TransportCarriesWords : Prop :=
  (∀ (order : Config.ByteOrder) (w : Word) (rest : List Byte),
    decodeBytes order (bytesOfWord order w ++ rest) = .word (decode w) rest) ∧
  ∀ (order : Config.ByteOrder) (bytes : List Byte), bytes.length < 4 → decodeBytes order bytes = .incomplete

/-! ## The step -/

/-- A step runs the decoded instruction: the command at the head of the queue of the issuer whose turn it is stands on the ports, is
taken from its queue, and `exec` of it is the step (R6, R31, R32; the queues and the agenda are the model's, log entry 3). -/
def Obligations.StepRunsDecodedCommand : Prop :=
  ∀ (s : State) (who : Issuer) (rest : List Event) (t : Transaction) (later : List Transaction) (i : Instr),
    s.agenda = .issue who :: rest → s.queue who = t :: later → decode t.cmd = .command i →
    step s = exec i (((s.withAgenda rest).withQueue who later).accept who t)

/-- The step of an illegal word sets `err`, returns none and changes nothing else of the block; and over any step that is no power-on
reset `err` is set afterwards exactly when it was set before or the word accepted is illegal, so it stays set (after R76). The queues
and the agenda, and that `err` stays where a step has no command offered, are the model's choice (log entry 3; rule R43 has an idle
bus that is taken as a word set `err`). -/
def Obligations.IllegalCommandEffect : Prop :=
  (∀ (s : State) (who : Issuer) (rest : List Event) (t : Transaction) (later : List Transaction) (why : IllegalReason),
    s.agenda = .issue who :: rest → s.queue who = t :: later → decode t.cmd = .illegal why →
    step s = .next { ((s.withAgenda rest).withQueue who later).accept who t with err := true, resp := none }) ∧
  ∀ s : State, s.powersOn = false → ∃ t, step s = .next t ∧
    (t.err = true ↔ s.err = true ∨ ∃ who tx why, s.offered = some (who, tx) ∧ decode tx.cmd = .illegal why)

/-- The model's choice (log entry 3): where no command is offered, a step changes nothing of the block and answers nothing. -/
def Obligations.NoOfferNoEffect : Prop :=
  ∀ s : State, s.offered = none → s.powersOn = false →
    step s = .next { s with agenda := s.agenda.tail, grant := none, resp := none }

/-- R87: after power-on reset each field of the block has the value of the table, at the start and after any later step that is a
power-on reset. -/
def Obligations.PowerOnReset : Prop :=
  ((∀ i : Channel, State.reset.wasHigh[i] = false ∧ State.reset.gates[i] = false) ∧
    State.reset.range = 0x40A00000 ∧ State.reset.invert = false ∧ State.reset.err = false) ∧
  ∀ s : State, s.powersOn = true → ∃ t, step s = .next t ∧
    (∀ i : Channel, t.wasHigh[i] = false ∧ t.gates[i] = false) ∧
    t.range = 0x40A00000 ∧ t.invert = false ∧ t.err = false

/-- The host's word is the next to run, with the operand ports as they stand (log entry 3). -/
def Obligations.FetchWordRunsNext : Prop :=
  ∀ (s : State) (w : Nat),
    step (s.withFetchWord 32 w) =
      runWord (BitVec.ofNat 32 w)
        { s with port := { s.port with cmd := BitVec.ofNat 32 w }, grant := some .realTime }

/-- R34: every command completes, in every state and with every operand, and so does every step. -/
def Obligations.EveryCommandCompletes : Prop :=
  (∀ (i : Instr) (s : State), ∃ t, exec i s = .next t) ∧ ∀ s : State, ∃ t, step s = .next t

/-! ## The edge detectors and FRAME -/

/-- R51: a pattern is truthy exactly when `w[30:0] != 0`; so +0.0 and -0.0 are the only patterns that are not. -/
def Obligations.TruthyIsNonzero : Prop :=
  ∀ w : Word, (truthy w = true ↔ w.extractLsb' 0 31 ≠ 0) ∧
    (truthy w = false ↔ w = 0x00000000 ∨ w = 0x80000000)

/-- R52: the edge, the new `wasHigh[i]`, and nothing else of the state. -/
def Obligations.EdgeDetectCell : Prop :=
  ∀ (i : Channel) (v : Word) (s : State),
    (edgeDetect i v s).1 = (truthy v && !s.wasHigh[i]) ∧
    (edgeDetect i v s).2.wasHigh[i] = truthy v ∧
    (∀ j : Channel, j ≠ i → (edgeDetect i v s).2.wasHigh[j] = s.wasHigh[j]) ∧
    (edgeDetect i v s).2 = s.withWasHigh (edgeDetect i v s).2.wasHigh

/-- R56: Toggle(i) flips gate `i` whatever its value, touches no other gate and no other field, and undoes itself. -/
def Obligations.ToggleFlipsOneGate : Prop :=
  ∀ (i : Channel) (s : State),
    (toggle i s).gates[i] = !s.gates[i] ∧
    (∀ j : Channel, j ≠ i → (toggle i s).gates[j] = s.gates[j]) ∧
    toggle i s = s.withGates (toggle i s).gates ∧
    toggle i (toggle i s) = s

/-- R49: FRAME completes in every state on every input, each channel with its edge test and toggle, and leaves every other field. -/
def Obligations.FrameResult : Prop :=
  ∀ s : State, exec .frame s = .next { s with
    wasHigh := Vector.ofFn fun i => truthy s.port.inp[i]
    gates := Vector.ofFn fun i => s.gates[i] ^^ (truthy s.port.inp[i] && !s.wasHigh[i])
    resp := none }

/-- R50: the order in which the 16 lanes are processed cannot be observed, and what FRAME does on a channel depends on that channel's
input, `wasHigh` and gate alone: on no other channel, and not on `range` or `invert`. -/
def Obligations.FrameLaneOrderInvisible : Prop :=
  (∀ (s : State) (order : List Channel), order.Perm (List.finRange 16) →
    exec .frame s = .next { frameLanes order s with resp := none }) ∧
  ∀ (s s' : State) (c : Channel), s.port.inp[c] = s'.port.inp[c] → s.wasHigh[c] = s'.wasHigh[c] →
    s.gates[c] = s'.gates[c] →
    ∃ t t', exec .frame s = .next t ∧ exec .frame s' = .next t' ∧
      t.wasHigh[c] = t'.wasHigh[c] ∧ t.gates[c] = t'.gates[c]

/-- R53: at the first FRAME after reset every truthy input reports an edge and toggles its gate, and no falsy one does. -/
def Obligations.FirstSampleFires : Prop :=
  ∀ (s : State) (c : Channel), s.wasHigh = State.reset.wasHigh →
    ∃ t, exec .frame s = .next t ∧
      (edgeDetect c s.port.inp[c] s).1 = truthy s.port.inp[c] ∧
      t.gates[c] = if truthy s.port.inp[c] then !s.gates[c] else s.gates[c]

/-- R54: over any sequence of FRAMEs from `wasHigh[i] = false`, the cell reports an edge at position `k` exactly when the sample is
truthy and is the first or follows one that is not. -/
def Obligations.EdgeAtEachRise : Prop :=
  ∀ (i : Channel) (frames : List (Bank Word)) (s : State), s.wasHigh[i] = false →
    (edgeReports i frames s).length = frames.length ∧
    ∀ (k : Nat) (v : Bank Word), frames[k]? = some v →
      (edgeReports i frames s)[k]? =
        some (truthy v[i] && match k with
          | 0 => true
          | j + 1 => (frames[j]?.map fun u : Bank Word => !truthy u[i]).getD true)

/-- R49, R54, R56: after any sequence of FRAMEs, a gate has flipped once per edge its detector reported, the settings are as they were,
and `wasHigh` holds the last sample. -/
def Obligations.GateFlipsOncePerEdge : Prop :=
  ∀ (frames : List (Bank Word)) (s : State), ∃ t, runFrames frames s = .next t ∧
    t.range = s.range ∧ t.invert = s.invert ∧ t.err = s.err ∧
    ∀ i : Channel,
      t.gates[i] = (s.gates[i] ^^ decide ((edgeReports i frames s).count true % 2 = 1)) ∧
      t.wasHigh[i] = (frames.getLast?.map fun v : Bank Word => truthy v[i]).getD s.wasHigh[i]

/-- R60: truthy, not truthy, truthy restores the gate from `wasHigh[c] = false`; from `wasHigh[c] = true` a non-truthy sample comes
first; and no shorter sequence reports two edges. -/
def Obligations.DoubleToggleRestores : Prop :=
  (∀ (s : State) (c : Channel) (v₁ v₂ v₃ : Bank Word), s.wasHigh[c] = false →
    truthy v₁[c] = true → truthy v₂[c] = false → truthy v₃[c] = true →
    ∃ t, runFrames [v₁, v₂, v₃] s = .next t ∧ t.gates[c] = s.gates[c] ∧
      (edgeReports c [v₁, v₂, v₃] s).count true = 2) ∧
  (∀ (s : State) (c : Channel) (v₀ v₁ v₂ v₃ : Bank Word), s.wasHigh[c] = true → truthy v₀[c] = false →
    truthy v₁[c] = true → truthy v₂[c] = false → truthy v₃[c] = true →
    ∃ t, runFrames [v₀, v₁, v₂, v₃] s = .next t ∧ t.gates[c] = s.gates[c] ∧
      (edgeReports c [v₀, v₁, v₂, v₃] s).count true = 2) ∧
  ∀ (s : State) (c : Channel) (frames : List (Bank Word)), 2 ≤ (edgeReports c frames s).count true →
    if s.wasHigh[c] then 4 ≤ frames.length else 3 ≤ frames.length

/-- R90: a channel truthy at the first FRAME toggles on top of the value a LOAD_STATE restored before it; one that is not truthy there
keeps the restored gate. -/
def Obligations.FirstFrameTogglesRestoredGate : Prop :=
  ∀ (s : State) (g r : Bool) (n : Nat) (m : Mask) (v : Bank Word) (c : Channel),
    s.wasHigh = State.reset.wasHigh →
    ∃ t u, exec (.loadState g r n m) s = .next t ∧ exec .frame (t.withInputs v) = .next u ∧
      u.gates[c] = if truthy v[c] then !t.gates[c] else t.gates[c]

/-- R91: RESET_GATES, RANDOMIZE_GATES and LOAD_STATE do not touch the edge memory: at the next FRAME a channel toggles exactly when its
sample is truthy and its last sample before the write was not. -/
def Obligations.EdgeMemorySurvivesGateWrites : Prop :=
  ∀ (s : State) (i : Instr) (v : Bank Word) (c : Channel),
    (i = .resetGates ∨ i = .randomizeGates ∨ ∃ g r n m, i = .loadState g r n m) →
    ∃ t u, exec i s = .next t ∧ exec .frame (t.withInputs v) = .next u ∧
      t.wasHigh = s.wasHigh ∧
      u.gates[c] = if truthy v[c] = true ∧ s.wasHigh[c] = false then !t.gates[c] else t.gates[c]

/-! ## The other commands -/

/-- R57: READ_GATE CH answers with gate CH zero-extended and range 0, and changes no state. -/
def Obligations.ReadGateResult : Prop :=
  ∀ (s : State) (ch : Channel),
    exec (.readGate ch) s =
      .next { s with resp := some { gates := if s.gates[ch] then 1 else 0, range := 0 } }

/-- R58: RESET_GATES clears every gate and nothing else; each output is then +0.0, or `range` where `invert` is set. -/
def Obligations.ResetGatesResult : Prop :=
  ∀ s : State, ∃ t, exec .resetGates s = .next t ∧
    t = { s with gates := t.gates, resp := none } ∧
    ∀ i : Channel, t.gates[i] = false ∧ t.out i = if s.invert then s.range else 0x00000000

/-- R59: RANDOMIZE_GATES sets each gate from its bit of the draw, whatever the draw and the old gates, and nothing else; a zero draw does
the same as RESET_GATES. -/
def Obligations.RandomizeGatesResult : Prop :=
  ∀ s : State,
    (∃ t, exec .randomizeGates s = .next t ∧ t = { s with gates := t.gates, resp := none } ∧
      ∀ i : Channel, t.gates[i] = s.port.rand.getLsbD i) ∧
    (s.port.rand = 0 → exec .randomizeGates s = exec .resetGates s)

/-- R67: TOGGLE_INVERT flips `invert` and nothing else; at once every output switches between +0.0 and `range`, and no light changes. -/
def Obligations.ToggleInvertResult : Prop :=
  ∀ s : State, ∃ t, exec .toggleInvert s = .next t ∧
    t = { s with invert := !s.invert, resp := none } ∧
    ∀ i : Channel, t.out i = (if s.gates[i] = s.invert then s.range else 0x00000000) ∧ t.light i = s.light i

/-- R69: SET_RANGE (R68), and LOAD_STATE with R = 1, store `DATA` bit for bit, whatever pattern it is; SET_RANGE changes nothing else. -/
def Obligations.RangeAcceptedAsIs : Prop :=
  (∀ s : State, exec .setRange s = .next { s with range := s.port.data, resp := none }) ∧
  ∀ (s : State) (g : Bool) (n : Nat) (m : Mask),
    ∃ t, exec (.loadState g true n m) s = .next t ∧ t.range = s.port.data

/-- R70: SAVE_STATE answers with all 16 gates, channel `i` at bit `i`, and the range of the same state, and changes no state. -/
def Obligations.SaveStateResult : Prop :=
  ∀ s : State, ∃ m : Mask,
    exec .saveState s = .next { s with resp := some { gates := m, range := s.range } } ∧
    ∀ i : Channel, m.getLsbD i = s.gates[i]

/-- R71: with G the first min(N, 16) gates take their bit of GBITS, with R the range takes `DATA`; every other field is as before, and
with neither nothing changes. -/
def Obligations.LoadStateResult : Prop :=
  ∀ (s : State) (g r : Bool) (n : Nat) (m : Mask), ∃ t, exec (.loadState g r n m) s = .next t ∧
    t = { s with gates := t.gates, range := t.range, resp := none } ∧
    t.range = (if r then s.port.data else s.range) ∧
    ∀ i : Channel, t.gates[i] = if g ∧ i.val < min n 16 then m.getLsbD i else s.gates[i]

/-- R45: LOAD_STATE ignores N and GBITS when G = 0, and the bits of GBITS from min(N, 16) on; and no command's outcome depends on an
operand port that rule does not have it read. -/
def Obligations.DontCaresIgnored : Prop :=
  (∀ (s : State) (r : Bool) (n n' : Nat) (m m' : Mask),
    exec (.loadState false r n m) s = exec (.loadState false r n' m') s) ∧
  (∀ (s : State) (g r : Bool) (n : Nat) (m m' : Mask),
    (∀ i : Channel, i.val < min n 16 → m.getLsbD i = m'.getLsbD i) →
    exec (.loadState g r n m) s = exec (.loadState g r n m') s) ∧
  ∀ (i : Instr) (s : State) (p : Transaction), portsAgree i s.port p →
    ∃ t, exec i s = .next t ∧ exec i (s.withPort p) = .next (t.withPort p)

/-- R30: RESET_GATES, SET_RANGE and LOAD_STATE are idempotent, and READ_GATE and SAVE_STATE change no state of the block. -/
def Obligations.IdempotentCommands : Prop :=
  ∀ (i : Instr) (s : State),
    (i = .resetGates ∨ i = .setRange ∨ i = .saveState ∨ (∃ ch, i = .readGate ch) ∨ ∃ g r n m, i = .loadState g r n m) →
    ∃ t, exec i s = .next t ∧ exec i t = .next t ∧
      ((i = .saveState ∨ ∃ ch, i = .readGate ch) → t = { s with resp := t.resp })

/-! ## The snapshot and the document -/

/-- R73: a snapshot saved in one state and loaded whole in any later one gives back gates and range exactly; `invert`, `wasHigh` and
the rest keep their values from just before the load. -/
def Obligations.SnapshotRoundTrip : Prop :=
  ∀ s : State, ∃ (s' : State) (snap : Response), exec .saveState s = .next s' ∧ s'.resp = some snap ∧
    ∀ t : State, t.port.data = snap.range →
      exec (.loadState true true 16 snap.gates) t =
        .next { t with gates := s.gates, range := s.range, resp := none }

/-- R72: SAVE_STATE does not read `invert`, and LOAD_STATE does not write it: it keeps its value from before the load, false where the
load follows power-on reset. -/
def Obligations.InvertOutsideSnapshot : Prop :=
  (∀ (s : State) (b : Bool), ∃ t u, exec .saveState s = .next t ∧ exec .saveState (s.withInvert b) = .next u ∧
    t.resp = u.resp) ∧
  (∀ (s : State) (g r : Bool) (n : Nat) (m : Mask), ∃ t, exec (.loadState g r n m) s = .next t ∧ t.invert = s.invert) ∧
  ∀ (g r : Bool) (n : Nat) (m : Mask), ∃ t, exec (.loadState g r n m) State.reset = .next t ∧ t.invert = false

/-- After R71, R74: a document of any length loads its first 16 elements; channels past its end keep their gate, an absent field leaves its
part, a missing document leaves everything, and `invert`, `wasHigh` and `err` are never written. That a missing document issues
LOAD_STATE with G = R = 0, and what an absent part's fields carry, is the model's choice among what R74 allows (log entry 7). -/
def Obligations.DocumentLoad : Prop :=
  (∀ (d : Document) (who : Issuer) (s : State), ∃ t, serve who (loadDocument (some d)) s = .next t ∧
    t = { s.accept who (loadDocument (some d)) with gates := t.gates, range := t.range, resp := none } ∧
    t.range = d.range.getD s.range ∧
    ∀ i : Channel, t.gates[i] = ((d.gates.getD [])[i.val]?).getD s.gates[i]) ∧
  ∀ (who : Issuer) (s : State),
    serve who (loadDocument none) s = .next { s.accept who (loadDocument none) with resp := none }

/-- After R73, R74: saving to a document and loading that document in any state reproduces gates and range. The ports the two commands
leave unsaid are the model's choice (log entry 7). -/
def Obligations.DocumentRoundTrip : Prop :=
  ∀ (who who' : Issuer) (s : State), ∃ (s' : State) (snap : Response),
    serve who saveCommand s = .next s' ∧ s'.resp = some snap ∧
    ∀ t : State, ∃ u, serve who' (loadDocument (some (savedDocument snap))) t = .next u ∧
      u.gates = s.gates ∧ u.range = s.range ∧ u.invert = t.invert ∧ u.wasHigh = t.wasHigh ∧ u.err = t.err

/-! ## Outputs -/

/-- R62: the four cases of the channel voltage. -/
def Obligations.OutVoltage : Prop :=
  ∀ (s : State) (i : Channel),
    (s.gates[i] = false → s.invert = false → s.out i = 0x00000000) ∧
    (s.gates[i] = true → s.invert = false → s.out i = s.range) ∧
    (s.gates[i] = false → s.invert = true → s.out i = s.range) ∧
    (s.gates[i] = true → s.invert = true → s.out i = 0x00000000)

/-- R66: every output is +0.0 or exactly `range`; none is negative (bit 31) while `range` is not; flipping `invert` only swaps which gate
value selects `range`. -/
def Obligations.OutMagnitude : Prop :=
  ∀ (s : State) (i : Channel),
    (s.out i = 0x00000000 ∨ s.out i = s.range) ∧
    (s.range.getLsbD 31 = false → (s.out i).getLsbD 31 = false) ∧
    (s.withInvert (!s.invert)).out i = if s.gates[i] = s.invert then s.range else 0x00000000

/-- R63, R64: the bus is 16 channels wide in every state; a light is `LIGHT_ON`, a pattern above that of 1.0 and no NaN, where its gate
is true, and +0.0 where it is not, whatever `invert` is. -/
def Obligations.BusWidthAndLights : Prop :=
  (0x3F800000 < lightOn.toNat ∧ lightOn.toNat ≤ 0x7F800000) ∧
  ∀ (s : State) (i : Channel), s.outChannels = 16 ∧
    s.light i = (if s.gates[i] then lightOn else 0x00000000) ∧
    ∀ b : Bool, (s.withInvert b).light i = s.light i

/-- R65: two states with the same gates, `invert`, `range` and `err` show the same outputs: no other state affects them. -/
def Obligations.OutputsOfVisibleState : Prop :=
  ∀ s t : State, s.gates = t.gates → s.invert = t.invert → s.range = t.range → s.err = t.err →
    s.outChannels = t.outChannels ∧ s.errOut = t.errOut ∧
    ∀ i : Channel, s.out i = t.out i ∧ s.light i = t.light i

/-- R88: the outputs after power-on reset. -/
def Obligations.ResetOutputs : Prop :=
  (∀ i : Channel, State.reset.out i = 0x00000000 ∧ State.reset.light i = 0x00000000) ∧
  State.reset.outChannels = 16 ∧ State.reset.errOut = false

/-! ## Whole-machine rules -/

/-- R14: no command but FRAME reads or writes `wasHigh`, and it is false on every channel after reset. -/
def Obligations.EdgeMemoryHidden : Prop :=
  (∀ (i : Instr) (s : State) (b : Bank Bool), i ≠ .frame →
    ∃ t, exec i s = .next t ∧ t.wasHigh = s.wasHigh ∧ exec i (s.withWasHigh b) = .next (t.withWasHigh b)) ∧
  ∀ i : Channel, State.reset.wasHigh[i] = false

/-- R24: no command but TOGGLE_INVERT writes `invert` (or reads it), and no command writes `err` (or reads it). -/
def Obligations.FlagsHaveNoSideEffects : Prop :=
  (∀ (i : Instr) (s : State) (b : Bool), i ≠ .toggleInvert →
    ∃ t, exec i s = .next t ∧ t.invert = s.invert ∧ exec i (s.withInvert b) = .next (t.withInvert b)) ∧
  ∀ (i : Instr) (s : State) (b : Bool),
    ∃ t, exec i s = .next t ∧ t.err = s.err ∧ exec i (s.withErr b) = .next (t.withErr b)

/-- R16: over a step that is no power-on reset, `range` changes only where SET_RANGE or a LOAD_STATE with R = 1 is accepted, and then
holds the `DATA` of that command. -/
def Obligations.RangeWriters : Prop :=
  ∀ s t : State, s.powersOn = false → step s = .next t → t.range ≠ s.range →
    ∃ who tx, s.offered = some (who, tx) ∧ t.range = tx.data ∧
      (decode tx.cmd = .command .setRange ∨ ∃ g n m, decode tx.cmd = .command (.loadState g true n m))

/-- R15: over a step that is no power-on reset, a gate changes only where FRAME, RESET_GATES, RANDOMIZE_GATES or a LOAD_STATE with G = 1
that reaches its channel is accepted. -/
def Obligations.GateWriters : Prop :=
  ∀ (s t : State) (c : Channel), s.powersOn = false → step s = .next t → t.gates[c] ≠ s.gates[c] →
    ∃ who tx, s.offered = some (who, tx) ∧
      (decode tx.cmd = .command .frame ∨ decode tx.cmd = .command .resetGates ∨
        decode tx.cmd = .command .randomizeGates ∨
        ∃ r n m, decode tx.cmd = .command (.loadState true r n m) ∧ c.val < n)

/-- R82: a word does the same whichever issuer it comes from. -/
def Obligations.IssuerMakesNoDifference : Prop :=
  ∀ (w : Word) (s : State) (who : Option Issuer),
    ∃ t, runWord w s = .next t ∧ runWord w (s.withGrant who) = .next (t.withGrant who)

/-- R32, in the model's own terms (log entry 3): a step uses up one event of the agenda, and takes at most the oldest command of one
issuer, so each issuer's own order is kept. -/
def Obligations.OwnOrderKept : Prop :=
  ∀ s t : State, step s = .next t →
    t.agenda = s.agenda.tail ∧
    ((s.offered = none ∧ t.realTime = s.realTime ∧ t.control = s.control) ∨
      ∃ who tx, s.offered = some (who, tx) ∧ s.queue who = tx :: t.queue who ∧ t.port = tx ∧
        ∀ other, other ≠ who → t.queue other = s.queue other)

/-- After R32, R83: every interleaving that keeps each issuer's own order is admitted, and its commands run in that one total order, each
seeing what all earlier ones left. The waiting queues and the agenda that orders them are the model's choice (log entry 3). -/
def Obligations.EveryInterleavingAdmitted : Prop :=
  ∀ (order : List (Issuer × Transaction)) (s : State),
    s.realTime = issuedBy .realTime order → s.control = issuedBy .control order →
    s.agenda = order.map (fun p => .issue p.1) →
    ∃ t, serially order s = .next t ∧
      Host.Core.run Sys2Proof.core order.length s = .next { t with realTime := [], control := [], agenda := [] }

/-! ## Invariants -/

/-- From a state in which no illegal command was issued and none is waiting, every step leads to such a state (after R76). The waiting
queues, that they outlast a power-on reset, and that a step with no command offered leaves `err` alone, are the model's choice (log
entry 3; rule R43 has an idle bus that is taken as a word set `err`). -/
def Obligations.CleanRunsStayClean : Prop :=
  ∀ s t : State, s.clean → step s = .next t → t.clean

/-- The premise of `CleanRunsStayClean` holds at reset, and offering legal commands keeps it. That `err` is false at reset is R87's; that
the queues are empty there, and how a command is offered, is the model's choice (log entry 3). -/
def Obligations.CleanAtReset : Prop :=
  State.reset.clean ∧
  ∀ (s : State) (who : Issuer) (tx : Transaction), s.clean → tx.legal = true → (s.offer who tx).clean

/-- R21, R31: after every step, a response that stands is that of the command just run, its gates and range both of the present state:
never torn, and never kept past its command. The field that holds it is the model's (log entry 5). -/
def Obligations.ResponseNeverTorn : Prop :=
  ∀ s t : State, s.answered → step s = .next t → t.answered

/-- `State.answered` holds at reset, where nothing was asked; and a READ_GATE or SAVE_STATE leaves its response (R21) standing, for its
issuer. The field that holds it after the command, and that it is none at reset, is the model's choice (log entry 5). -/
def Obligations.AnsweredAtReset : Prop :=
  State.reset.answered ∧
  ∀ (who : Issuer) (tx : Transaction) (i : Instr) (s : State), decode tx.cmd = .command i →
    (i = .saveState ∨ ∃ ch, i = .readGate ch) →
    ∃ t, serve who tx s = .next t ∧ t.resp = responseOf i t ∧ t.resp.isSome = true ∧ t.grant = some who

/-- After R14, R83: where each issuer keeps to the commands of its path, the edge memory changes, over a step that is no power-on reset,
only where the real-time path's FRAME is accepted: nothing the control path issues reaches it. The queues in which the commands wait
are the model's choice (log entry 3). -/
def Obligations.EdgeMemoryFollowsRealTimePath : Prop :=
  ∀ s t : State, s.pathsSplit → s.powersOn = false → step s = .next t → t.wasHigh ≠ s.wasHigh →
    ∃ tx, s.offered = some (.realTime, tx) ∧ tx.cmd = 0x10000000

/-! ## The assembler -/

/-- R48: each pseudo-instruction issues exactly the commands of its expansion; and what those are: the words, and the inputs or the
`DATA` that go with them, 1.0, 5.0 and 10.0 as their patterns. -/
def Obligations.PseudoExpansions : Prop :=
  (AsmLine.idle.assemble = (AsmLine.frameSparse []).assemble ∧
    (∀ c, (AsmLine.hold c).assemble = (AsmLine.frameSparse [(c, .pattern 0x3F800000)]).assemble) ∧
    (∀ c, (AsmLine.pulse c).assemble =
      (AsmLine.hold c).assemble.bind fun a => AsmLine.idle.assemble.map fun b => a ++ b) ∧
    AsmLine.range5.assemble = (AsmLine.setRange (.pattern 0x40A00000)).assemble ∧
    AsmLine.range10.assemble = (AsmLine.setRange (.pattern 0x41200000)).assemble ∧
    ∀ g v, (AsmLine.restore g v).assemble = (AsmLine.loadState (some (16, g)) (some v)).assemble) ∧
  (∃ t, AsmLine.idle.assemble = some [t] ∧ t.cmd = 0x10000000 ∧ ∀ i : Channel, t.inp[i] = 0x00000000) ∧
  (∀ c : Channel, ∃ t, (AsmLine.hold c).assemble = some [t] ∧ t.cmd = 0x10000000 ∧
    ∀ i : Channel, t.inp[i] = if i = c then 0x3F800000 else 0x00000000) ∧
  (∀ c : Channel, ∃ t u, (AsmLine.pulse c).assemble = some [t, u] ∧ t.cmd = 0x10000000 ∧ u.cmd = 0x10000000 ∧
    ∀ i : Channel, t.inp[i] = (if i = c then 0x3F800000 else 0x00000000) ∧ u.inp[i] = 0x00000000) ∧
  (∃ t, AsmLine.range5.assemble = some [t] ∧ t.cmd = 0x60000000 ∧ t.data = 0x40A00000) ∧
  (∃ t, AsmLine.range10.assemble = some [t] ∧ t.cmd = 0x60000000 ∧ t.data = 0x41200000) ∧
  ∀ (g : Mask) (v : Value), ∃ t, (AsmLine.restore g v).assemble = some [t] ∧
    t.cmd = 0x8C100000 ||| g.setWidth 32 ∧ t.data = v.word

/-- R47: every line but a raw word issues only legal commands. -/
def Obligations.AssembledLinesAreLegal : Prop :=
  ∀ (l : AsmLine) (ts : List Transaction), (∀ w, l ≠ .rawWord w) → l.assemble = some ts →
    ∀ t ∈ ts, t.legal = true

/-- The command each base line of R47 issues: its word, and the operand ports the line names. Every FRAME input of a sparse line that is
not listed is +0.0; a raw word has every port +0.0 or 0. (A sparse FRAME that lists a channel twice is outside R47: log entry 8.) -/
def Obligations.BaseLineCommands : Prop :=
  (∀ vs : Bank Value, ∃ t, (AsmLine.frame vs).assemble = some [t] ∧ t.cmd = 0x10000000 ∧
    ∀ i : Channel, t.inp[i] = vs[i].word) ∧
  (∀ entries : List (Channel × Value), (entries.map Prod.fst).Nodup →
    ∃ t, (AsmLine.frameSparse entries).assemble = some [t] ∧ t.cmd = 0x10000000 ∧
      (∀ p ∈ entries, t.inp[p.1] = p.2.word) ∧
      ∀ i : Channel, i ∉ entries.map Prod.fst → t.inp[i] = 0x00000000) ∧
  (∀ c : Channel, ∃ t, (AsmLine.readGate c).assemble = some [t] ∧ t.cmd = 0x20000000 ||| BitVec.ofNat 32 c.val) ∧
  (∃ t, AsmLine.resetGates.assemble = some [t] ∧ t.cmd = 0x30000000) ∧
  (∀ draw : Mask, ∃ t, (AsmLine.randomizeGates draw).assemble = some [t] ∧ t.cmd = 0x40000000 ∧ t.rand = draw) ∧
  (∃ t, AsmLine.toggleInvert.assemble = some [t] ∧ t.cmd = 0x50000000) ∧
  (∀ v : Value, ∃ t, (AsmLine.setRange v).assemble = some [t] ∧ t.cmd = 0x60000000 ∧ t.data = v.word) ∧
  (∃ t, AsmLine.saveState.assemble = some [t] ∧ t.cmd = 0x70000000) ∧
  (∀ (n : BitVec 8) (m : Mask) (v : Value), ∃ t, (AsmLine.loadState (some (n, m)) (some v)).assemble = some [t] ∧
    t.cmd = 0x8C000000 ||| n.setWidth 32 <<< 16 ||| m.setWidth 32 ∧ t.data = v.word) ∧
  (∀ (n : BitVec 8) (m : Mask), ∃ t, (AsmLine.loadState (some (n, m)) none).assemble = some [t] ∧
    t.cmd = 0x88000000 ||| n.setWidth 32 <<< 16 ||| m.setWidth 32) ∧
  (∀ v : Value, ∃ t, (AsmLine.loadState none (some v)).assemble = some [t] ∧ t.cmd = 0x84000000 ∧ t.data = v.word) ∧
  (∃ t, (AsmLine.loadState none none).assemble = some [t] ∧ t.cmd = 0x80000000) ∧
  (∀ w : Word, ∃ t, (AsmLine.rawWord w).assemble = some [t] ∧ t.cmd = w ∧ t.data = 0 ∧ t.rand = 0 ∧
    ∀ i : Channel, t.inp[i] = 0x00000000) ∧
  (∀ w : Word, (Value.pattern w).word = w) ∧ Value.nan.word = 0x7FC00000 ∧ Value.inf.word = 0x7F800000 ∧
  ∀ places : Nat, (Value.decimal true 0 places).word = 0x80000000
end

