-- ==== Sys2Proof/Laws/Decode.lean ====
section
/-! SUPPORT. The fields of a word built from its parts, and the forms of decoding, said once for the provers. -/

namespace Sys2Proof

/-- The fields of a format C word (R37). -/
theorem encodeC_fields (op : BitVec 4) :
    opcode (encodeC op) = op ∧ (encodeC op).extractLsb' 0 28 = 0 := by
  revert op; decide

/-- The fields of a format R word (R38). -/
theorem encodeR_fields (op : BitVec 4) (ch : Channel) :
    opcode (encodeR op ch) = op ∧ (encodeR op ch).extractLsb' 4 24 = 0 ∧ channelField (encodeR op ch) = ch := by
  revert op ch; decide

/-- The bits of a format R word (R38). -/
theorem encodeR_bit (op : BitVec 4) (ch : Channel) (k : Nat) :
    (encodeR op ch).getLsbD k =
      if k < 4 then ch.val.testBit k else if k < 28 then false else op.getLsbD (k - 28) := by
  simp only [encodeR, BitVec.getLsbD_append]
  by_cases h0 : k < 4
  · simp [h0]
  by_cases h1 : k < 28
  · simp [h0, h1, show k - 4 < 24 by omega]
  · simp [h0, h1, show ¬k - 4 < 24 by omega, show k - 4 - 24 = k - 28 by omega]

/-- The bits of a format L word (R39). -/
theorem encodeL_bit (op : BitVec 4) (g r : Bool) (n : Nat) (m : Mask) (k : Nat) :
    (encodeL op g r n m).getLsbD k =
      if k < 16 then m.getLsbD k
      else if k < 24 then (BitVec.ofNat 8 n).getLsbD (k - 16)
      else if k < 26 then false
      else if k = 26 then r
      else if k = 27 then g
      else op.getLsbD (k - 28) := by
  simp only [encodeL, BitVec.getLsbD_append, BitVec.getLsbD_ofBool]
  by_cases h0 : k < 16
  · simp [h0]
  by_cases h1 : k < 24
  · simp [h0, h1, show k - 16 < 8 by omega]
  by_cases h2 : k < 26
  · simp [h0, h1, h2, show ¬k - 16 < 8 by omega, show k - 16 - 8 < 2 by omega]
  by_cases h3 : k = 26
  · subst h3; simp
  by_cases h4 : k = 27
  · subst h4; simp
  · simp [h0, h1, h2, h3, h4, show ¬k - 16 < 8 by omega, show ¬k - 16 - 8 < 2 by omega,
      show ¬k - 16 - 8 - 2 < 1 by omega, show ¬k - 16 - 8 - 2 - 1 < 1 by omega,
      show k - 16 - 8 - 2 - 1 - 1 = k - 28 by omega]

/-- The fields of a format L word (R39), its count no wider than its field. -/
theorem encodeL_fields (op : BitVec 4) (g r : Bool) {n : Nat} (m : Mask) (hn : n ≤ 255) :
    opcode (encodeL op g r n m) = op ∧ (encodeL op g r n m).extractLsb' 24 2 = 0 ∧
    gatesPresentField (encodeL op g r n m) = g ∧ rangePresentField (encodeL op g r n m) = r ∧
    countField (encodeL op g r n m) = n ∧ gbitsField (encodeL op g r n m) = m := by
  have count : (encodeL op g r n m).extractLsb' 16 8 = BitVec.ofNat 8 n := by
    apply BitVec.eq_of_getLsbD_eq; intro k hk
    simp only [BitVec.getLsbD_extractLsb', encodeL_bit]
    interval_cases k <;> simp
  refine ⟨?_, ?_, ?_, ?_, ?_, ?_⟩
  · apply BitVec.eq_of_getLsbD_eq; intro k hk
    simp only [opcode, BitVec.getLsbD_extractLsb', encodeL_bit]
    interval_cases k <;> simp
  · apply BitVec.eq_of_getLsbD_eq; intro k hk
    simp only [BitVec.getLsbD_extractLsb', encodeL_bit]
    interval_cases k <;> simp
  · simp only [gatesPresentField, encodeL_bit]; simp
  · simp only [rangePresentField, encodeL_bit]; simp
  · simp only [countField, count]; simp; omega
  · apply BitVec.eq_of_getLsbD_eq; intro k hk
    simp only [gbitsField, BitVec.getLsbD_extractLsb', encodeL_bit]
    interval_cases k <;> simp

/-- A word's opcode, by its bits. -/
theorem opcode_bit (w : Word) (k : Nat) (h₀ : 28 ≤ k) (h₁ : k < 32) : w.getLsbD k = (opcode w).getLsbD (k - 28) := by
  simp [opcode, show k - 28 < 4 by omega, show 28 + (k - 28) = k by omega]

/-- The bits of a field that is zero. -/
theorem bit_of_field_zero {w : Word} {lo len : Nat} (z : w.extractLsb' lo len = 0) (k : Nat) (h₀ : lo ≤ k)
    (h₁ : k < lo + len) : w.getLsbD k = false := by
  have := congrArg (fun x => x.getLsbD (k - lo)) z
  simpa [show k - lo < len by omega, show lo + (k - lo) = k by omega] using this

/-! The opcode alone selects the format (R41) -/

theorem decode_one {w : Word} (h : opcode w = 1) : decode w = decodeC .frame w := by unfold decode; rw [h]; rfl
theorem decode_two {w : Word} (h : opcode w = 2) : decode w = decodeR .readGate w := by unfold decode; rw [h]; rfl
theorem decode_three {w : Word} (h : opcode w = 3) : decode w = decodeC .resetGates w := by unfold decode; rw [h]; rfl
theorem decode_four {w : Word} (h : opcode w = 4) : decode w = decodeC .randomizeGates w := by unfold decode; rw [h]; rfl
theorem decode_five {w : Word} (h : opcode w = 5) : decode w = decodeC .toggleInvert w := by unfold decode; rw [h]; rfl
theorem decode_six {w : Word} (h : opcode w = 6) : decode w = decodeC .setRange w := by unfold decode; rw [h]; rfl
theorem decode_seven {w : Word} (h : opcode w = 7) : decode w = decodeC .saveState w := by unfold decode; rw [h]; rfl
theorem decode_eight {w : Word} (h : opcode w = 8) : decode w = decodeL w := by unfold decode; rw [h]; rfl

theorem decode_reserved {w : Word} (h : opcode w = 0 ∨ 9 ≤ (opcode w).toNat) : decode w = .illegal .reservedOpcode := by
  have h' : (opcode w).toNat = 0 ∨ 9 ≤ (opcode w).toNat := h.imp_left fun e => by rw [e]; rfl
  unfold decode
  split <;> first | rfl | omega

theorem decodeC_eq_command {i j : Instr} {w : Word} :
    decodeC i w = .command j ↔ w.extractLsb' 0 28 = 0 ∧ i = j := by
  unfold decodeC; split <;> simp_all

theorem decodeR_eq_command {mk : Channel → Instr} {j : Instr} {w : Word} :
    decodeR mk w = .command j ↔ w.extractLsb' 4 24 = 0 ∧ mk (channelField w) = j := by
  unfold decodeR; split <;> simp_all

theorem decodeL_eq_command {j : Instr} {w : Word} :
    decodeL w = .command j ↔ w.extractLsb' 24 2 = 0 ∧
      .loadState (gatesPresentField w) (rangePresentField w) (countField w) (gbitsField w) = j := by
  unfold decodeL; split <;> simp_all

end Sys2Proof
end

