-- ==== Sys2Proof/Laws/Assembler.lean ====
section
/-! SUPPORT. What the assembler's shared operations give: the inputs of a sparse FRAME, and the word of a LOAD_STATE as rule R71
writes it. -/

namespace Sys2Proof.Machine

theorem lookup_of_mem {entries : List (Channel × Value)} (h : (entries.map Prod.fst).Nodup) {p : Channel × Value}
    (hp : p ∈ entries) : entries.lookup p.1 = some p.2 := by
  induction entries with
  | nil => simp at hp
  | cons a rest ih =>
    obtain ⟨x, v⟩ := a
    simp only [List.map_cons, List.nodup_cons] at h
    rcases List.mem_cons.mp hp with rfl | hp
    · simp
    · have hne : p.1 ≠ x := fun e => h.1 (e ▸ List.mem_map_of_mem hp)
      rw [List.lookup_cons, beq_false_of_ne hne]
      exact ih h.2 hp

theorem lookup_of_not_mem {entries : List (Channel × Value)} {i : Channel} (h : i ∉ entries.map Prod.fst) :
    entries.lookup i = none := by
  induction entries with
  | nil => rfl
  | cons a rest ih =>
    obtain ⟨x, v⟩ := a
    simp only [List.map_cons, List.mem_cons, not_or] at h
    rw [List.lookup_cons, beq_false_of_ne h.1]
    exact ih h.2

/-- A channel listed once has its value (R47). -/
theorem sparseInputs_listed {entries : List (Channel × Value)} (h : (entries.map Prod.fst).Nodup) {p : Channel × Value}
    (hp : p ∈ entries) : (sparseInputs entries)[p.1] = p.2.word := by
  simp [sparseInputs, lookup_of_mem h hp]

/-- Every other channel has +0.0 (R47). -/
theorem sparseInputs_unlisted {entries : List (Channel × Value)} {i : Channel} (h : i ∉ entries.map Prod.fst) :
    (sparseInputs entries)[i] = Config.plusZero := by
  simp [sparseInputs, lookup_of_not_mem h]

/-- The word of LOAD_STATE, `0x80000000 | G<<27 | R<<26 | N<<16 | GBITS` (R71). -/
theorem encodeL_eq_or (g r : Bool) (n : BitVec 8) (m : Mask) :
    encodeL 0x8 g r n.toNat m =
      (if g then (if r then 0x8C000000 else 0x88000000) else if r then 0x84000000 else 0x80000000)
        ||| n.setWidth 32 <<< 16 ||| m.setWidth 32 := by
  apply BitVec.eq_of_getLsbD_eq
  intro k hk
  rw [encodeL_bit]
  cases g <;> cases r <;> interval_cases k <;> simp

end Sys2Proof.Machine
end

