-- ==== Sys2Proof/Laws/State.lean ====
section
/-! SUPPORT. One lemma per field and update of State, so that no later proof unfolds a record update. -/

namespace Sys2Proof.Machine.State

variable (s : State)

/-! `withWasHigh` -/

@[simp] theorem withWasHigh_wasHigh (b : Bank Bool) : (s.withWasHigh b).wasHigh = b := rfl
@[simp] theorem withWasHigh_gates (b : Bank Bool) : (s.withWasHigh b).gates = s.gates := rfl
@[simp] theorem withWasHigh_range (b : Bank Bool) : (s.withWasHigh b).range = s.range := rfl
@[simp] theorem withWasHigh_invert (b : Bank Bool) : (s.withWasHigh b).invert = s.invert := rfl
@[simp] theorem withWasHigh_err (b : Bank Bool) : (s.withWasHigh b).err = s.err := rfl
@[simp] theorem withWasHigh_port (b : Bank Bool) : (s.withWasHigh b).port = s.port := rfl
@[simp] theorem withWasHigh_grant (b : Bank Bool) : (s.withWasHigh b).grant = s.grant := rfl
@[simp] theorem withWasHigh_resp (b : Bank Bool) : (s.withWasHigh b).resp = s.resp := rfl
@[simp] theorem withWasHigh_realTime (b : Bank Bool) : (s.withWasHigh b).realTime = s.realTime := rfl
@[simp] theorem withWasHigh_control (b : Bank Bool) : (s.withWasHigh b).control = s.control := rfl
@[simp] theorem withWasHigh_agenda (b : Bank Bool) : (s.withWasHigh b).agenda = s.agenda := rfl

/-! `withGates` -/

@[simp] theorem withGates_wasHigh (b : Bank Bool) : (s.withGates b).wasHigh = s.wasHigh := rfl
@[simp] theorem withGates_gates (b : Bank Bool) : (s.withGates b).gates = b := rfl
@[simp] theorem withGates_range (b : Bank Bool) : (s.withGates b).range = s.range := rfl
@[simp] theorem withGates_invert (b : Bank Bool) : (s.withGates b).invert = s.invert := rfl
@[simp] theorem withGates_err (b : Bank Bool) : (s.withGates b).err = s.err := rfl
@[simp] theorem withGates_port (b : Bank Bool) : (s.withGates b).port = s.port := rfl
@[simp] theorem withGates_grant (b : Bank Bool) : (s.withGates b).grant = s.grant := rfl
@[simp] theorem withGates_resp (b : Bank Bool) : (s.withGates b).resp = s.resp := rfl
@[simp] theorem withGates_realTime (b : Bank Bool) : (s.withGates b).realTime = s.realTime := rfl
@[simp] theorem withGates_control (b : Bank Bool) : (s.withGates b).control = s.control := rfl
@[simp] theorem withGates_agenda (b : Bank Bool) : (s.withGates b).agenda = s.agenda := rfl

/-! `withRange` -/

@[simp] theorem withRange_wasHigh (w : Word) : (s.withRange w).wasHigh = s.wasHigh := rfl
@[simp] theorem withRange_gates (w : Word) : (s.withRange w).gates = s.gates := rfl
@[simp] theorem withRange_range (w : Word) : (s.withRange w).range = w := rfl
@[simp] theorem withRange_invert (w : Word) : (s.withRange w).invert = s.invert := rfl
@[simp] theorem withRange_err (w : Word) : (s.withRange w).err = s.err := rfl
@[simp] theorem withRange_port (w : Word) : (s.withRange w).port = s.port := rfl
@[simp] theorem withRange_grant (w : Word) : (s.withRange w).grant = s.grant := rfl
@[simp] theorem withRange_resp (w : Word) : (s.withRange w).resp = s.resp := rfl
@[simp] theorem withRange_realTime (w : Word) : (s.withRange w).realTime = s.realTime := rfl
@[simp] theorem withRange_control (w : Word) : (s.withRange w).control = s.control := rfl
@[simp] theorem withRange_agenda (w : Word) : (s.withRange w).agenda = s.agenda := rfl

/-! `withInvert` -/

@[simp] theorem withInvert_wasHigh (b : Bool) : (s.withInvert b).wasHigh = s.wasHigh := rfl
@[simp] theorem withInvert_gates (b : Bool) : (s.withInvert b).gates = s.gates := rfl
@[simp] theorem withInvert_range (b : Bool) : (s.withInvert b).range = s.range := rfl
@[simp] theorem withInvert_invert (b : Bool) : (s.withInvert b).invert = b := rfl
@[simp] theorem withInvert_err (b : Bool) : (s.withInvert b).err = s.err := rfl
@[simp] theorem withInvert_port (b : Bool) : (s.withInvert b).port = s.port := rfl
@[simp] theorem withInvert_grant (b : Bool) : (s.withInvert b).grant = s.grant := rfl
@[simp] theorem withInvert_resp (b : Bool) : (s.withInvert b).resp = s.resp := rfl
@[simp] theorem withInvert_realTime (b : Bool) : (s.withInvert b).realTime = s.realTime := rfl
@[simp] theorem withInvert_control (b : Bool) : (s.withInvert b).control = s.control := rfl
@[simp] theorem withInvert_agenda (b : Bool) : (s.withInvert b).agenda = s.agenda := rfl

/-! `withErr` -/

@[simp] theorem withErr_wasHigh (b : Bool) : (s.withErr b).wasHigh = s.wasHigh := rfl
@[simp] theorem withErr_gates (b : Bool) : (s.withErr b).gates = s.gates := rfl
@[simp] theorem withErr_range (b : Bool) : (s.withErr b).range = s.range := rfl
@[simp] theorem withErr_invert (b : Bool) : (s.withErr b).invert = s.invert := rfl
@[simp] theorem withErr_err (b : Bool) : (s.withErr b).err = b := rfl
@[simp] theorem withErr_port (b : Bool) : (s.withErr b).port = s.port := rfl
@[simp] theorem withErr_grant (b : Bool) : (s.withErr b).grant = s.grant := rfl
@[simp] theorem withErr_resp (b : Bool) : (s.withErr b).resp = s.resp := rfl
@[simp] theorem withErr_realTime (b : Bool) : (s.withErr b).realTime = s.realTime := rfl
@[simp] theorem withErr_control (b : Bool) : (s.withErr b).control = s.control := rfl
@[simp] theorem withErr_agenda (b : Bool) : (s.withErr b).agenda = s.agenda := rfl

/-! `withResp` -/

@[simp] theorem withResp_wasHigh (r : Option Response) : (s.withResp r).wasHigh = s.wasHigh := rfl
@[simp] theorem withResp_gates (r : Option Response) : (s.withResp r).gates = s.gates := rfl
@[simp] theorem withResp_range (r : Option Response) : (s.withResp r).range = s.range := rfl
@[simp] theorem withResp_invert (r : Option Response) : (s.withResp r).invert = s.invert := rfl
@[simp] theorem withResp_err (r : Option Response) : (s.withResp r).err = s.err := rfl
@[simp] theorem withResp_port (r : Option Response) : (s.withResp r).port = s.port := rfl
@[simp] theorem withResp_grant (r : Option Response) : (s.withResp r).grant = s.grant := rfl
@[simp] theorem withResp_resp (r : Option Response) : (s.withResp r).resp = r := rfl
@[simp] theorem withResp_realTime (r : Option Response) : (s.withResp r).realTime = s.realTime := rfl
@[simp] theorem withResp_control (r : Option Response) : (s.withResp r).control = s.control := rfl
@[simp] theorem withResp_agenda (r : Option Response) : (s.withResp r).agenda = s.agenda := rfl

/-! `withAgenda` -/

@[simp] theorem withAgenda_wasHigh (a : List Event) : (s.withAgenda a).wasHigh = s.wasHigh := rfl
@[simp] theorem withAgenda_gates (a : List Event) : (s.withAgenda a).gates = s.gates := rfl
@[simp] theorem withAgenda_range (a : List Event) : (s.withAgenda a).range = s.range := rfl
@[simp] theorem withAgenda_invert (a : List Event) : (s.withAgenda a).invert = s.invert := rfl
@[simp] theorem withAgenda_err (a : List Event) : (s.withAgenda a).err = s.err := rfl
@[simp] theorem withAgenda_port (a : List Event) : (s.withAgenda a).port = s.port := rfl
@[simp] theorem withAgenda_grant (a : List Event) : (s.withAgenda a).grant = s.grant := rfl
@[simp] theorem withAgenda_resp (a : List Event) : (s.withAgenda a).resp = s.resp := rfl
@[simp] theorem withAgenda_realTime (a : List Event) : (s.withAgenda a).realTime = s.realTime := rfl
@[simp] theorem withAgenda_control (a : List Event) : (s.withAgenda a).control = s.control := rfl
@[simp] theorem withAgenda_agenda (a : List Event) : (s.withAgenda a).agenda = a := rfl

/-! `accept` -/

@[simp] theorem accept_wasHigh (who : Issuer) (t : Transaction) : (s.accept who t).wasHigh = s.wasHigh := rfl
@[simp] theorem accept_gates (who : Issuer) (t : Transaction) : (s.accept who t).gates = s.gates := rfl
@[simp] theorem accept_range (who : Issuer) (t : Transaction) : (s.accept who t).range = s.range := rfl
@[simp] theorem accept_invert (who : Issuer) (t : Transaction) : (s.accept who t).invert = s.invert := rfl
@[simp] theorem accept_err (who : Issuer) (t : Transaction) : (s.accept who t).err = s.err := rfl
@[simp] theorem accept_port (who : Issuer) (t : Transaction) : (s.accept who t).port = t := rfl
@[simp] theorem accept_grant (who : Issuer) (t : Transaction) : (s.accept who t).grant = some who := rfl
@[simp] theorem accept_resp (who : Issuer) (t : Transaction) : (s.accept who t).resp = s.resp := rfl
@[simp] theorem accept_realTime (who : Issuer) (t : Transaction) : (s.accept who t).realTime = s.realTime := rfl
@[simp] theorem accept_control (who : Issuer) (t : Transaction) : (s.accept who t).control = s.control := rfl
@[simp] theorem accept_agenda (who : Issuer) (t : Transaction) : (s.accept who t).agenda = s.agenda := rfl

/-! `idle` -/

@[simp] theorem idle_wasHigh : s.idle.wasHigh = s.wasHigh := rfl
@[simp] theorem idle_gates : s.idle.gates = s.gates := rfl
@[simp] theorem idle_range : s.idle.range = s.range := rfl
@[simp] theorem idle_invert : s.idle.invert = s.invert := rfl
@[simp] theorem idle_err : s.idle.err = s.err := rfl
@[simp] theorem idle_port : s.idle.port = s.port := rfl
@[simp] theorem idle_grant : s.idle.grant = none := rfl
@[simp] theorem idle_resp : s.idle.resp = none := rfl
@[simp] theorem idle_realTime : s.idle.realTime = s.realTime := rfl
@[simp] theorem idle_control : s.idle.control = s.control := rfl
@[simp] theorem idle_agenda : s.idle.agenda = s.agenda := rfl

/-! `powerOn` -/

@[simp] theorem powerOn_wasHigh : s.powerOn.wasHigh = State.reset.wasHigh := rfl
@[simp] theorem powerOn_gates : s.powerOn.gates = State.reset.gates := rfl
@[simp] theorem powerOn_range : s.powerOn.range = State.reset.range := rfl
@[simp] theorem powerOn_invert : s.powerOn.invert = State.reset.invert := rfl
@[simp] theorem powerOn_err : s.powerOn.err = State.reset.err := rfl
@[simp] theorem powerOn_port : s.powerOn.port = s.port := rfl
@[simp] theorem powerOn_grant : s.powerOn.grant = State.reset.grant := rfl
@[simp] theorem powerOn_resp : s.powerOn.resp = State.reset.resp := rfl
@[simp] theorem powerOn_realTime : s.powerOn.realTime = s.realTime := rfl
@[simp] theorem powerOn_control : s.powerOn.control = s.control := rfl
@[simp] theorem powerOn_agenda : s.powerOn.agenda = s.agenda := rfl

/-! `withQueue`: the block and the ports stay, and the other queue with them -/

@[simp] theorem withQueue_wasHigh (who : Issuer) (q : List Transaction) : (s.withQueue who q).wasHigh = s.wasHigh := by
  cases who <;> rfl
@[simp] theorem withQueue_gates (who : Issuer) (q : List Transaction) : (s.withQueue who q).gates = s.gates := by
  cases who <;> rfl
@[simp] theorem withQueue_range (who : Issuer) (q : List Transaction) : (s.withQueue who q).range = s.range := by
  cases who <;> rfl
@[simp] theorem withQueue_invert (who : Issuer) (q : List Transaction) : (s.withQueue who q).invert = s.invert := by
  cases who <;> rfl
@[simp] theorem withQueue_err (who : Issuer) (q : List Transaction) : (s.withQueue who q).err = s.err := by
  cases who <;> rfl
@[simp] theorem withQueue_port (who : Issuer) (q : List Transaction) : (s.withQueue who q).port = s.port := by
  cases who <;> rfl
@[simp] theorem withQueue_grant (who : Issuer) (q : List Transaction) : (s.withQueue who q).grant = s.grant := by
  cases who <;> rfl
@[simp] theorem withQueue_resp (who : Issuer) (q : List Transaction) : (s.withQueue who q).resp = s.resp := by
  cases who <;> rfl
@[simp] theorem withQueue_agenda (who : Issuer) (q : List Transaction) : (s.withQueue who q).agenda = s.agenda := by
  cases who <;> rfl

@[simp] theorem withQueue_queue_same (who : Issuer) (q : List Transaction) : (s.withQueue who q).queue who = q := by
  cases who <;> rfl

theorem withQueue_queue_other {who other : Issuer} (h : other ≠ who) (q : List Transaction) :
    (s.withQueue who q).queue other = s.queue other := by
  cases who <;> cases other <;> first | exact absurd rfl h | rfl

end Sys2Proof.Machine.State
end

