-- ==== Sys2Proof/Laws/Ops.lean ====
section
/-! SUPPORT. What each shared operation does, said once: the packing of booleans, the writes of one channel, the micro-operations, a
lane of a frame and the lanes together, the load of the gates, and IllegalCommand. -/

namespace Sys2Proof.Machine

/-! Packing -/

theorem packMask_getElem (b : Bank Bool) (i : Nat) (h : i < 16) : (packMask b)[i] = b[i] := by
  rw [packMask, BitVec.getElem_eq_testBit_toNat, ← BitVec.getLsbD, BitVec.getLsbD_setWidth,
    BitVec.getLsbD_ofBoolListLE]
  simp [h, List.getD_eq_getElem?_getD]

@[simp] theorem unpackMask_getElem (m : Mask) (i : Nat) (h : i < 16) : (unpackMask m)[i] = m[i] := by
  simp [unpackMask]

theorem unpackMask_packMask (b : Bank Bool) : unpackMask (packMask b) = b := by
  ext i h; simp [packMask_getElem b i h]

theorem packMask_unpackMask (m : Mask) : packMask (unpackMask m) = m := by
  ext i h; simp [packMask_getElem _ i h]

/-! Writes of one channel -/

theorem putWasHigh_wasHigh (s : State) (i j : Channel) (b : Bool) :
    (s.putWasHigh i b).wasHigh[j] = if j = i then b else s.wasHigh[j] := by
  by_cases h : j = i
  · subst h; simp [State.putWasHigh]
  · have h' : i.val ≠ j.val := fun e => h (Fin.ext e.symm)
    simp [State.putWasHigh, h, Vector.getElem_set_ne, h']

theorem putGate_gates (s : State) (i j : Channel) (b : Bool) :
    (s.putGate i b).gates[j] = if j = i then b else s.gates[j] := by
  by_cases h : j = i
  · subst h; simp [State.putGate]
  · have h' : i.val ≠ j.val := fun e => h (Fin.ext e.symm)
    simp [State.putGate, h, Vector.getElem_set_ne, h']

/-- Two states that differ at most in the edge memory and the gates. -/
def State.sameBut (s t : State) : Prop := t = (s.withWasHigh t.wasHigh).withGates t.gates

theorem State.sameBut.trans {s t u : State} (h : s.sameBut t) (k : t.sameBut u) : s.sameBut u := by
  unfold State.sameBut at *
  rw [k, h]; rfl

/-! A lane and the lanes of a frame -/

/-- Everything one lane does: its own `wasHigh` and gate, and nothing else. -/
theorem frameLane_spec (s : State) (i : Channel) :
    s.sameBut (frameLane s i) ∧
    (∀ j : Channel, (frameLane s i).wasHigh[j] = if j = i then truthy s.port.inp[i] else s.wasHigh[j]) ∧
    ∀ j : Channel, (frameLane s i).gates[j] =
      if j = i then s.gates[i] ^^ (truthy s.port.inp[i] && !s.wasHigh[i]) else s.gates[j] := by
  have lane : frameLane s i = if (truthy s.port.inp[i] && !s.wasHigh[i]) = true
      then toggle i (s.putWasHigh i (truthy s.port.inp[i])) else s.putWasHigh i (truthy s.port.inp[i]) := rfl
  have hg : ∀ (b : Bool) (j : Channel), (s.putWasHigh i b).gates[j] = s.gates[j] := fun _ _ => rfl
  cases he : truthy s.port.inp[i] && !s.wasHigh[i]
  · rw [he, if_neg Bool.false_ne_true] at lane
    rw [lane]
    refine ⟨rfl, fun j => putWasHigh_wasHigh s i j _, fun j => ?_⟩
    rw [hg]; by_cases h : j = i <;> simp [h]
  · rw [he, if_pos rfl] at lane
    rw [lane]
    refine ⟨rfl, fun j => putWasHigh_wasHigh s i j _, fun j => ?_⟩
    rw [toggle, putGate_gates, hg, hg]; by_cases h : j = i <;> simp [h]

theorem frameLanes_nil (s : State) : frameLanes [] s = s := rfl

theorem frameLanes_cons (i : Channel) (order : List Channel) (s : State) :
    frameLanes (i :: order) s = frameLanes order (frameLane s i) := rfl

/-- Everything the lanes do, for any list of distinct channels: each listed channel one edge test and at most one toggle. -/
theorem frameLanes_spec {order : List Channel} (h : order.Nodup) (s : State) :
    s.sameBut (frameLanes order s) ∧
    (∀ j : Channel, (frameLanes order s).wasHigh[j] =
      if j ∈ order then truthy s.port.inp[j] else s.wasHigh[j]) ∧
    ∀ j : Channel, (frameLanes order s).gates[j] =
      if j ∈ order then s.gates[j] ^^ (truthy s.port.inp[j] && !s.wasHigh[j]) else s.gates[j] := by
  induction order generalizing s with
  | nil => exact ⟨rfl, by simp [frameLanes_nil], by simp [frameLanes_nil]⟩
  | cons i rest ih =>
    obtain ⟨hi, hrest⟩ := List.nodup_cons.mp h
    obtain ⟨same, high, gate⟩ := frameLane_spec s i
    obtain ⟨same', high', gate'⟩ := ih hrest (frameLane s i)
    have hp : (frameLane s i).port = s.port := by rw [same]; rfl
    refine ⟨same.trans same', fun j => ?_, fun j => ?_⟩
    · rw [frameLanes_cons, high', hp, high]
      by_cases hj : j = i
      · subst hj; simp [hi]
      · simp [hj]
    · rw [frameLanes_cons, gate', hp, high, gate]
      by_cases hj : j = i
      · subst hj; simp [hi]
      · simp [hj]

/-! Loads and the exceptional condition -/

theorem loadGates_gates (s : State) (n : Nat) (m : Mask) (i : Channel) :
    (s.loadGates n m).gates[i] = if i.val < min n 16 then m[i] else s.gates[i] := by
  simp [State.loadGates, neff, Config.nch]

/-- A load of the gates writes the gates alone. -/
theorem loadGates_eq (s : State) (n : Nat) (m : Mask) : s.loadGates n m = s.withGates (s.loadGates n m).gates := rfl

/-- LOAD_STATE in terms of its two parts, whatever G and R are. -/
theorem execLoadState_eq (g r : Bool) (n : Nat) (m : Mask) (s : State) :
    execLoadState g r n m s = .next { s with
      gates := if g then (s.loadGates n m).gates else s.gates
      range := if r then s.dataPort else s.range
      resp := none } := by
  cases g <;> cases r <;> rfl

theorem flipInvert_eq (s : State) : s.flipInvert = s.withInvert (!s.invert) := rfl

theorem setErr_eq (s : State) : s.setErr = s.withErr true := rfl

theorem raiseIllegalCommand_eq (s : State) : raiseIllegalCommand s = { s with err := true, resp := none } := rfl

/-! Runs -/

@[simp] theorem serially_nil (s : State) : serially [] s = .next s := rfl

@[simp] theorem runFrames_nil (s : State) : runFrames [] s = .next s := rfl

@[simp] theorem edgeReports_nil (i : Channel) (s : State) : edgeReports i [] s = [] := rfl

end Sys2Proof.Machine
end

