-- ==== Sys2Proof/Laws/PerInstr.lean ====
section
/-! SUPPORT. Statements made per instruction: the encoding of each command fits the match and mask of its row of
spec/opcode_table.json. -/

namespace Sys2Proof.Laws.TableRow

/-- The encoded word has the bits the instruction's opcode-table row fixes. -/
def Statement (i : Instr) : Prop := encode i &&& (opcodeRow i).2 = (opcodeRow i).1

theorem frame : Statement .frame := by unfold Statement; decide

theorem readGate (ch : Channel) : Statement (.readGate ch) := by
  unfold Statement; revert ch; decide

theorem resetGates : Statement .resetGates := by unfold Statement; decide

theorem randomizeGates : Statement .randomizeGates := by unfold Statement; decide

theorem toggleInvert : Statement .toggleInvert := by unfold Statement; decide

theorem setRange : Statement .setRange := by unfold Statement; decide

theorem saveState : Statement .saveState := by unfold Statement; decide

theorem loadState (g r : Bool) (n : Nat) (gbits : Mask) : Statement (.loadState g r n gbits) := by
  unfold Statement
  apply BitVec.eq_of_getLsbD_eq
  intro k hk
  simp only [encode, opcodeRow, BitVec.getLsbD_and, encodeL_bit]
  interval_cases k <;> simp

end Sys2Proof.Laws.TableRow
end

