-- ==== Sys2Proof/Laws/Step.lean ====
section
/-! SUPPORT. What a step can do, said once: an idle step, a power-on reset, or the service of one command. -/

namespace Sys2Proof.Machine

/-- Every step is one of these three. -/
theorem step_cases (s : State) :
    (s.offered = none ∧ s.powersOn = false ∧ step s = .next (s.withAgenda s.agenda.tail).idle) ∨
    (s.offered = none ∧ s.powersOn = true ∧ step s = .next (s.withAgenda s.agenda.tail).powerOn) ∨
    ∃ who t later rest, s.agenda = .issue who :: rest ∧ s.queue who = t :: later ∧
      s.powersOn = false ∧ s.offered = some (who, t) ∧
      step s = serve who t ((s.withAgenda rest).withQueue who later) := by
  match ha : s.agenda with
  | [] => exact .inl ⟨by simp [State.offered, ha], by simp [State.powersOn, ha],
      by simp [step, advance, ha, State.withAgenda, State.idle]⟩
  | .powerOnReset :: rest => exact .inr (.inl ⟨by simp [State.offered, ha], by simp [State.powersOn, ha],
      by simp [step, advance, ha]⟩)
  | .issue who :: rest =>
    match hq : s.queue who with
    | [] => exact .inl ⟨by simp [State.offered, ha, hq], by simp [State.powersOn, ha],
        by simp [step, advance, ha, hq]⟩
    | t :: later => exact .inr (.inr ⟨who, t, later, rest, rfl, hq, by simp [State.powersOn, ha],
        by simp [State.offered, ha, hq], by simp [step, advance, ha, hq]⟩)

/-- A command whose word is the encoding of an instruction runs as what that word decodes to. -/
theorem serve_of_decode {who : Issuer} {t : Transaction} {i : Instr} (h : decode t.cmd = .command i) (s : State) :
    serve who t s = exec i (s.accept who t) := by
  rw [serve, runWord, h]

/-- An illegal command word raises IllegalCommand. -/
theorem serve_of_illegal {who : Issuer} {t : Transaction} {why : IllegalReason} (h : decode t.cmd = .illegal why) (s : State) :
    serve who t s = .next (raiseIllegalCommand (s.accept who t)) := by
  rw [serve, runWord, h]

/-- A run of one step more, on any machine. -/
theorem run_succ (M : Host.Core) {k : Nat} {s t : M.State} (h : M.step s = .next t) : M.run (k + 1) s = M.run k t := by
  show (match M.step s with
    | .next s' => M.run k s'
    | .fault r => .fault r
    | .refused r => .refused r) = _
  rw [h]

/-- A run of one step more, on this one. -/
theorem run_succ_of_next {k : Nat} {s t : State} (h : step s = .next t) :
    Host.Core.run Sys2Proof.core (k + 1) s = Host.Core.run Sys2Proof.core k t :=
  run_succ Sys2Proof.core h

end Sys2Proof.Machine
end

