-- ==== Sys2Proof/Tests/Slice0.lean ====
section
/-! SUPPORT. Small tests, each of one step or one word, with expected results from the tables of 95_test_vectors.md; and for each
obligation with hypotheses a witness that meets them. -/

namespace Sys2Proof.Tests

open Sys2Proof.Machine

set_option maxRecDepth 4096

/-- A command word with these ports. -/
def command (w : Word) (inp : List (Channel × Word)) (data : Word) (rand : Mask) : Transaction :=
  { cmd := w, inp := Vector.ofFn fun i => (inp.lookup i).getD 0, data := data, rand := rand }

/-- The reset state with these gates and this edge memory, as masks. -/
def start (gates wasHigh : Mask) : State :=
  { State.reset with gates := unpackMask gates, wasHigh := unpackMask wasHigh }

/-- The next state, if there is one. -/
def nextOf (o : Host.Outcome State Fault Refusal) : Option State :=
  match o with
  | .next s => some s
  | .fault _ => none
  | .refused _ => none

/-- Gates and edge memory after a command, as masks. -/
def masks (t : Transaction) (s : State) : Option (Mask × Mask) :=
  (nextOf (serve .control t s)).map fun u => (packMask u.gates, packMask u.wasHigh)

/-- The settings, flags and gates after a command. -/
def settings (t : Transaction) (s : State) : Option (Word × Bool × Bool × Mask) :=
  (nextOf (serve .control t s)).map fun u => (u.range, u.invert, u.err, packMask u.gates)

/-- The response of a command. -/
def response (t : Transaction) (s : State) : Option (Option Response) :=
  (nextOf (serve .control t s)).map State.resp

/-! ## Encoding: the words of 30_encoding.md and table V-ENC -/

theorem test_wf_count_too_wide : (Instr.loadState true false 256 0).wf = false := by decide
theorem test_wf_count_greatest : (Instr.loadState true false 255 0).wf = true := by decide

theorem test_decode_frame : decode 0b00010000000000000000000000000000 = .command .frame := by decide
theorem test_decode_read_gate : decode 0b00100000000000000000000000001111 = .command (.readGate 15) := by decide
theorem test_decode_reset_gates : decode 0b00110000000000000000000000000000 = .command .resetGates := by decide
theorem test_decode_randomize_gates : decode 0b01000000000000000000000000000000 = .command .randomizeGates := by decide
theorem test_decode_toggle_invert : decode 0b01010000000000000000000000000000 = .command .toggleInvert := by decide
theorem test_decode_set_range : decode 0b01100000000000000000000000000000 = .command .setRange := by decide
theorem test_decode_save_state : decode 0b01110000000000000000000000000000 = .command .saveState := by decide
theorem test_decode_load_both : decode 0b10001100000100001000000000000001 = .command (.loadState true true 16 0x8001) := by
  decide
theorem test_decode_load_gates : decode 0x88FF1234 = .command (.loadState true false 255 0x1234) := by decide
theorem test_decode_load_range : decode 0x84000000 = .command (.loadState false true 0 0) := by decide
theorem test_decode_load_neither : decode 0x80FFFFFF = .command (.loadState false false 255 0xFFFF) := by decide

theorem test_decode_illegal_opcodes :
    ([0x00000000, 0x90000000, 0xF0000000].map decode).all (· = .illegal .reservedOpcode) = true := by decide
theorem test_decode_illegal_bits :
    ([0x83FFFFFF, 0x10000001, 0x18000000, 0x20000010, 0x7FFFFFFF, 0x81000000, 0x8E000000].map decode).all
      (· = .illegal .reservedBits) = true := by decide

theorem test_encode_read_gate : encode (.readGate 12) = 0x2000000C := by decide
theorem test_encode_load : encode (.loadState true false 10 0x03FF) = 0x880A03FF := by decide
theorem test_table_word : decodeTableWord 32 0x80000000 = some (.loadState false false 0 0) := by decide
theorem test_bytes_little : decodeBytes .little [0x0C, 0x00, 0x00, 0x20, 0xAA] = .word (.command (.readGate 12)) [0xAA] := by
  decide

/-! ## Edge detectors and FRAME: tables V-TRUTHY and V-FRAME -/

theorem test_truthy_patterns :
    ([0x00000000, 0x80000000].all fun w => !truthy w) &&
    ([0x00000001, 0x80000001, 0x3F000000, 0x3F800000, 0xBF800000, 0x7F800000, 0x7FC00000, 0xFFC00000].all truthy) = true := by
  decide

theorem test_frame_row5 :
    masks (command 0x10000000 [(4, 0x3F800000), (8, 0x3F800000), (12, 0x3F800000)] 0 0) (start 0x00F0 0x0F00) =
      some (0x10E0, 0x1110) := by decide

theorem test_frame_nan_and_minus_zero :
    masks (command 0x10000000 [(0, 0x7FC00000), (1, 0x80000000)] 0 0) (start 0x0001 0x0000) =
      some (0x0000, 0x0001) := by decide

/-! ## Gate commands: table V-GATE -/

theorem test_read_gate_set : response (command 0x2000000C [] 0 0) (start 0x1000 0) =
    some (some { gates := 0x0001, range := 0 }) := by decide
theorem test_read_gate_clear : response (command 0x2000000B [] 0 0) (start 0x1000 0) =
    some (some { gates := 0x0000, range := 0 }) := by decide
theorem test_reset_gates : masks (command 0x30000000 [] 0 0xFFFF) (start 0xBEEF 0x0F0F) = some (0x0000, 0x0F0F) := by
  decide
theorem test_randomize_gates : masks (command 0x40000000 [] 0 0x00A5) (start 0x1234 0x0F0F) = some (0x00A5, 0x0F0F) := by
  decide

/-! ## Settings: table V-SET -/

theorem test_toggle_invert : settings (command 0x50000000 [] 0 0) (start 0x0001 0) =
    some (0x40A00000, true, false, 0x0001) := by decide
theorem test_set_range_nan_payload : settings (command 0x60000000 [] 0x7FC00123 0) (start 0x0001 0) =
    some (0x7FC00123, false, false, 0x0001) := by decide

/-! ## State access: table V-STATE, and W7 -/

theorem test_save_state : response (command 0x70000000 [] 0 0) { start 0x8001 0 with range := 0x41200000 } =
    some (some { gates := 0x8001, range := 0x41200000 }) := by decide
theorem test_load_clamped : settings (command 0x8814FFFF [] 0x41200000 0) (start 0x0000 0) =
    some (0x40A00000, false, false, 0xFFFF) := by decide
theorem test_load_partial : settings (command 0x880A0155 [] 0x41200000 0) (start 0xFC00 0) =
    some (0x40A00000, false, false, 0xFD55) := by decide

/-! ## IllegalCommand: program P3, steps 4 and 5 -/

theorem test_illegal_word : settings (command 0x10000001 [(1, 0x3F800000)] 0 0) (start 0xFF05 0) =
    some (0x40A00000, false, true, 0xFF05) := by decide

/-! ## Outputs: table V-MUX -/

theorem test_out_negative_range :
    ({ start 0x0001 0 with range := 0xC0A00000 } : State).out 0 = 0xC0A00000 := by decide
theorem test_out_inverted :
    let s : State := { start 0x0080 0 with invert := true, range := 0x41200000 }
    (s.out 7, s.out 6) = (0x00000000, 0x41200000) := by decide
theorem test_light_default : ((start 0x0001 0).lightAt 0x3F8CCCCD 0, (start 0x0001 0).lightAt 0x3F8CCCCD 1) =
    (0x3F8CCCCD, 0x00000000) := by decide
theorem test_above_one : (aboveOne 0x3F8CCCCD, aboveOne 0x3F800000, aboveOne 0x7FC00000, aboveOne 0xBF8CCCCD) =
    (true, false, false, false) := by decide

/-! ## The step: the host's word after reset, and the two issuers -/

theorem test_step_from_reset :
    (nextOf (step (State.reset.withFetchWord 32 0x50000000))).map State.invert = some true := by decide
theorem test_step_power_on :
    (nextOf (step { start 0xFFFF 0xFFFF with err := true, agenda := [.powerOnReset] })).map
      (fun t => (packMask t.gates, t.err)) = some (0x0000, false) := by decide

/-! ## The assembler: values of R47, lines of R47 and R48 -/

theorem test_values : ([Value.decimal false 11 1, .decimal true 50 1, .decimal true 0 1, .decimal false 5 1, .nan, .inf].map
    Value.word) = [0x3F8CCCCD, 0xC0A00000, 0x80000000, 0x3F000000, 0x7FC00000, 0x7F800000] := by decide
theorem test_line_load : readLine "LOAD_STATE gates=10:0x03FF, range=-5.0 ; partial" =
    .line (.loadState (some (10, 0x03FF)) (some (.decimal true 50 1))) := by decide
theorem test_line_words : (AsmLine.loadState (some (10, 0x03FF)) none).assemble.map (List.map Transaction.cmd) =
    some [0x880A03FF] := by decide
theorem test_line_sparse :
    readLine (String.ofList ("FRAME ".toList ++ [Char.ofNat 123] ++ "3: 0.5, 7: 1.0".toList ++ [Char.ofNat 125])) =
      .line (.frameSparse [(3, .decimal false 5 1), (7, .decimal false 10 1)]) := by decide
theorem test_line_bad : (readLine "READ_GATE 16", readLine "; only a comment") = (.bad, .blank) := by decide

/-! ## Witnesses: a state and operands that meet each statement's hypotheses -/

/-- A state whose control path has one command to issue, at its turn. -/
def offering (w : Word) : State := State.reset.offer .control (command w [] 0x41200000 0)

/-- Channel 3 high, every other input low. -/
def high3 : Bank Word := Vector.ofFn fun i => if i = 3 then 0x3F800000 else 0

/-- Every input low. -/
def low : Bank Word := Vector.replicate 16 0

theorem witness_DecodeOfEncode : WellFormed (.loadState true true 255 0xFFFF) ∧ WellFormed (.readGate 15) := by decide
theorem witness_EncodeOfDecode : decode 0x8C108001 = .command (.loadState true true 16 0x8001) := by decide
theorem witness_IllegalWordsExactly :
    ((0x00000000 : Word) >>> 28 = 0 ∧ 9 ≤ ((0x90000000 : Word) >>> 28).toNat) ∧
    ((0x18000000 : Word) >>> 28 = 1 ∧ (0x18000000 : Word) &&& 0x0FFFFFFF ≠ 0) ∧
    ((0x20000010 : Word) >>> 28 = 2 ∧ (0x20000010 : Word) &&& 0x0FFFFFF0 ≠ 0) ∧
    ((0x81000000 : Word) >>> 28 = 8 ∧ (0x81000000 : Word) &&& 0x03000000 ≠ 0) ∧
    ((0x2000000F : Word) >>> 28 = 2 ∧ (0x2000000F : Word) &&& 0x0FFFFFF0 = 0) := by decide
theorem witness_TransportCarriesWords : ([0x20, 0x00, 0x00] : List Byte).length < 4 := by decide
theorem witness_StepRunsDecodedCommand :
    (offering 0x50000000).agenda = [.issue .control] ∧
    (offering 0x50000000).queue .control = [command 0x50000000 [] 0x41200000 0] ∧
    decode (command 0x50000000 [] 0x41200000 0).cmd = .command .toggleInvert := by decide
theorem witness_IllegalCommandEffect :
    ((offering 0x90000000).agenda = [.issue .control] ∧
      (offering 0x90000000).queue .control = [command 0x90000000 [] 0x41200000 0] ∧
      decode (command 0x90000000 [] 0x41200000 0).cmd = .illegal .reservedOpcode) ∧
    (offering 0x90000000).powersOn = false := by decide
theorem witness_NoOfferNoEffect :
    ({ start 1 1 with agenda := [.issue .realTime] } : State).offered = none ∧
    ({ start 1 1 with agenda := [.issue .realTime] } : State).powersOn = false := by decide
theorem witness_PowerOnReset : ({ start 1 1 with agenda := [.powerOnReset] } : State).powersOn = true := by decide
theorem witness_FrameLaneOrderInvisible :
    ((List.finRange 16).reverse.Perm (List.finRange 16)) ∧
    ((start 1 1).port.inp[3] = (start 3 1).port.inp[3] ∧ (start 1 1).wasHigh[3] = (start 3 1).wasHigh[3] ∧
      (start 1 1).gates[3] = (start 3 1).gates[3]) :=
  ⟨List.reverse_perm _, by decide⟩
theorem witness_FirstSampleFires : (start 0x0008 0).wasHigh = State.reset.wasHigh := by decide
theorem witness_EdgeAtEachRise : (start 0 0xFFF7).wasHigh[3] = false ∧ [high3, low, high3][2]? = some high3 := by
  decide
theorem witness_DoubleToggleRestores :
    ((start 0 0).wasHigh[3] = false ∧ truthy high3[3] = true ∧ truthy low[3] = false) ∧
    (start 0 0x0008).wasHigh[3] = true ∧ 2 ≤ (edgeReports 3 [high3, low, high3] (start 0 0)).count true := by decide
theorem witness_FirstFrameTogglesRestoredGate : (start 0xFFFF 0).wasHigh = State.reset.wasHigh := by decide
theorem witness_EdgeMemorySurvivesGateWrites :
    (Instr.resetGates = .resetGates ∨ Instr.resetGates = .randomizeGates ∨ ∃ g r n m, Instr.resetGates = .loadState g r n m) :=
  .inl rfl
theorem witness_RandomizeGatesResult : (start 0xFFFF 0).port.rand = 0 := by decide
theorem witness_DontCaresIgnored :
    (∀ i : Channel, i.val < min 3 16 → (0x0007 : Mask).getLsbD i = (0xFFFF : Mask).getLsbD i) ∧
    portsAgree .setRange (command 0 [(3, 1)] 7 1) (command 0 [] 7 2) ∧
    portsAgree .frame (command 0 [(3, 1)] 7 1) (command 0 [(3, 1)] 8 2) ∧
    portsAgree .randomizeGates (command 0 [(3, 1)] 7 1) (command 0 [] 8 1) ∧
    portsAgree (.loadState true false 3 7) (command 0 [(3, 1)] 7 1) (command 0 [] 8 2) ∧
    portsAgree .saveState (command 0 [(3, 1)] 7 1) (command 0 [] 8 2) := by
  refine ⟨by decide, rfl, rfl, rfl, ?_, trivial⟩
  intro h; cases h
theorem witness_IdempotentCommands :
    (∃ g r n m, Instr.loadState true true 20 7 = .loadState g r n m) ∧ (∃ ch, Instr.readGate 15 = .readGate ch) :=
  ⟨⟨_, _, _, _, rfl⟩, _, rfl⟩
theorem witness_SnapshotRoundTrip :
    ({ start 0x1234 0 with port := command 0 [] 0x40A00000 0 } : State).port.data = (start 0x8001 0).range := by decide
theorem witness_OutVoltage :
    ((start 1 0).gates[1] = false ∧ (start 1 0).gates[0] = true ∧ (start 1 0).invert = false) ∧
    (((start 1 0).withInvert true).gates[1] = false ∧ ((start 1 0).withInvert true).gates[0] = true ∧
      ((start 1 0).withInvert true).invert = true) := by decide
theorem witness_OutMagnitude : (start 1 0).range.getLsbD 31 = false := by decide
theorem witness_OutputsOfVisibleState :
    (start 1 0).gates = (start 1 0xFFFF).gates ∧ (start 1 0).invert = (start 1 0xFFFF).invert ∧
    (start 1 0).range = (start 1 0xFFFF).range ∧ (start 1 0).err = (start 1 0xFFFF).err := by decide
theorem witness_EdgeMemoryHidden : Instr.saveState ≠ .frame := by decide
theorem witness_FlagsHaveNoSideEffects : Instr.frame ≠ .toggleInvert := by decide
theorem witness_RangeWriters :
    (offering 0x60000000).powersOn = false ∧
    (nextOf (step (offering 0x60000000))).map (fun t => decide (t.range ≠ (offering 0x60000000).range)) = some true := by
  decide
theorem witness_GateWriters :
    (offering 0x8803FFFF).powersOn = false ∧
    (nextOf (step (offering 0x8803FFFF))).map (fun t => decide (t.gates[2] ≠ (offering 0x8803FFFF).gates[2])) = some true := by
  decide
theorem witness_OwnOrderKept : (nextOf (step (offering 0x50000000))).isSome = true := by decide
theorem witness_EveryInterleavingAdmitted :
    let order := [(Issuer.control, command 0x50000000 [] 0 0), (.realTime, command 0x10000000 [] 0 0)]
    let s : State := { start 1 0 with
      realTime := [command 0x10000000 [] 0 0], control := [command 0x50000000 [] 0 0]
      agenda := [.issue .control, .issue .realTime] }
    s.realTime = issuedBy .realTime order ∧ s.control = issuedBy .control order ∧
      s.agenda = order.map (fun p => .issue p.1) := by decide
theorem witness_CleanRunsStayClean :
    (offering 0x50000000).clean ∧ (nextOf (step (offering 0x50000000))).isSome = true := by decide
theorem witness_CleanAtReset : State.reset.clean ∧ (command 0x70000000 [] 0 0).legal = true := by decide
theorem witness_ResponseNeverTorn :
    ∃ s : State, s.answered ∧ s.resp = some { gates := 0x8001, range := 0x40A00000 } ∧ (nextOf (step s)).isSome = true :=
  ⟨{ start 0x8001 0 with
      port := command 0x70000000 [] 0 0, grant := some .control, resp := some { gates := 0x8001, range := 0x40A00000 } },
    fun _ h => ⟨rfl, .saveState, by decide, h ▸ by decide⟩, rfl, by decide⟩
theorem witness_AnsweredAtReset :
    decode (command 0x2000000F [] 0 0).cmd = .command (.readGate 15) ∧ ∃ ch, Instr.readGate 15 = .readGate ch :=
  ⟨by decide, _, rfl⟩
theorem witness_EdgeMemoryFollowsRealTimePath :
    let s := (State.reset.offer .realTime (command 0x10000000 [(6, 0x3F800000)] 0 0)).offer .control (command 0x50000000 [] 0 0)
    s.pathsSplit ∧ s.powersOn = false ∧
    (nextOf (step s)).map (fun t => decide (t.wasHigh ≠ s.wasHigh)) = some true := by decide
theorem witness_AssembledLinesAreLegal :
    (∀ w, AsmLine.saveState ≠ .rawWord w) ∧ AsmLine.saveState.assemble = some [bareCommand 0x70000000] :=
  ⟨fun _ h => (by cases h), by decide⟩
theorem witness_BaseLineCommands :
    let entries : List (Channel × Value) := [(0, .nan), (15, .inf)]
    (entries.map Prod.fst).Nodup ∧ (15, .inf) ∈ entries ∧ (3 : Channel) ∉ entries.map Prod.fst := by decide

end Sys2Proof.Tests
end

namespace Sys2Proof.Machine

/-! What a step is, by what the agenda and the queues hold (rules R6, R31, R32) -/

/-- The issuer whose turn it is has its oldest command served, on the state with that turn and that command taken away. -/
theorem step_of_issue {s : State} {who : Issuer} {rest : List Event} {t : Transaction} {later : List Transaction}
    (ha : s.agenda = .issue who :: rest) (hq : s.queue who = t :: later) :
    step s = serve who t ((s.withAgenda rest).withQueue who later) := by
  simp only [step, advance, ha, hq]

/-- Of the three kinds of step, only the idle one has neither a command offered nor a power-on reset. -/
theorem step_of_no_offer {s : State} (hoffer : s.offered = none) (hpower : s.powersOn = false) :
    step s = .next (s.withAgenda s.agenda.tail).idle := by
  obtain ⟨-, -, hidle⟩ | ⟨-, hon, -⟩ | ⟨who, t, -, -, -, -, -, hsome, -⟩ := step_cases s
  · exact hidle
  · exact absurd (hpower.symm.trans hon) Bool.false_ne_true
  · exact absurd (hoffer.symm.trans hsome) (Option.some_ne_none (who, t)).symm

/-- Settles O6: the step serves the command, and a served command runs as what its word decodes to. -/
theorem stepRunsDecodedCommand : Obligations.StepRunsDecodedCommand := by
  intro s who rest t later i ha hq hdecode
  rw [step_of_issue ha hq, serve_of_decode hdecode]

/-- Settles O8: the step is the idle one, whose fields are those of the statement. -/
theorem noOfferNoEffect : Obligations.NoOfferNoEffect := by
  intro s hoffer hpower
  rw [step_of_no_offer hoffer hpower, State.withAgenda, State.idle]

end Sys2Proof.Machine

namespace Sys2Proof.Machine

/-! What a command leaves in each field of the block, one equation for all eight commands (rules R14 to R18, R21) -/

/-- `wasHigh` after the command: FRAME alone writes it (R14, R52). -/
def State.wasHighAfter (s : State) : Instr → Bank Bool
  | .frame => Vector.ofFn fun c => truthy s.port.inp[c]
  | _ => s.wasHigh

/-- `gates` after the command: four commands write them (R15). -/
def State.gatesAfter (s : State) : Instr → Bank Bool
  | .frame => Vector.ofFn fun c => s.gates[c] ^^ (truthy s.port.inp[c] && !s.wasHigh[c])
  | .resetGates => Vector.replicate 16 false
  | .randomizeGates => Vector.ofFn s.randPort
  | .loadState true _ n gbits => (s.loadGates n gbits).gates
  | _ => s.gates

/-- `range` after the command: SET_RANGE and LOAD_STATE with R = 1 write it (R16). -/
def State.rangeAfter (s : State) : Instr → Word
  | .setRange | .loadState _ true _ _ => s.dataPort
  | _ => s.range

/-- `invert` after the command: TOGGLE_INVERT alone writes it (R17, R24). -/
def State.invertAfter (s : State) : Instr → Bool
  | .toggleInvert => !s.invert
  | _ => s.invert

/-- The state after the command. `err` and the environment but for the response stay, whatever the command (R18, R24). -/
def State.after (s : State) (i : Instr) : State :=
  { s with
    wasHigh := s.wasHighAfter i
    gates := s.gatesAfter i
    range := s.rangeAfter i
    invert := s.invertAfter i
    resp := responseOf i s }

@[simp] theorem State.after_wasHigh (s : State) (i : Instr) : (s.after i).wasHigh = s.wasHighAfter i := rfl
@[simp] theorem State.after_gates (s : State) (i : Instr) : (s.after i).gates = s.gatesAfter i := rfl
@[simp] theorem State.after_range (s : State) (i : Instr) : (s.after i).range = s.rangeAfter i := rfl
@[simp] theorem State.after_invert (s : State) (i : Instr) : (s.after i).invert = s.invertAfter i := rfl
@[simp] theorem State.after_err (s : State) (i : Instr) : (s.after i).err = s.err := rfl
@[simp] theorem State.after_port (s : State) (i : Instr) : (s.after i).port = s.port := rfl
@[simp] theorem State.after_grant (s : State) (i : Instr) : (s.after i).grant = s.grant := rfl
@[simp] theorem State.after_resp (s : State) (i : Instr) : (s.after i).resp = responseOf i s := rfl

/-- The 16 lanes of a frame together (R49). -/
theorem frameLanes_finRange (s : State) :
    frameLanes (List.finRange 16) s = (s.withWasHigh (s.wasHighAfter .frame)).withGates (s.gatesAfter .frame) := by
  obtain ⟨same, high, gate⟩ := frameLanes_spec (List.nodup_finRange 16) s
  have hhigh : (frameLanes (List.finRange 16) s).wasHigh = s.wasHighAfter .frame := by
    ext c hc; simpa [State.wasHighAfter] using high ⟨c, hc⟩
  have hgate : (frameLanes (List.finRange 16) s).gates = s.gatesAfter .frame := by
    ext c hc; simpa [State.gatesAfter] using gate ⟨c, hc⟩
  exact Eq.trans same (by rw [hhigh, hgate])

/-- Every command completes, and leaves the state that its fields' values say. -/
theorem exec_eq_after (i : Instr) (s : State) : exec i s = .next (s.after i) := by
  cases i with
  | frame => rw [exec, execFrame, frameLanes_finRange]; rfl
  | loadState g r n gbits => cases g <;> cases r <;> rfl
  | _ => rfl

/-- A command that returns a response writes neither the gates nor the range it returns (R57, R70). -/
theorem responseOf_after (i : Instr) (s : State) : responseOf i (s.after i) = responseOf i s := by
  cases i <;> rfl

/-! What a command neither reads nor writes (R14, R24) -/

theorem after_withWasHigh {i : Instr} (hi : i ≠ .frame) (s : State) (b : Bank Bool) :
    (s.withWasHigh b).after i = (s.after i).withWasHigh b := by
  cases i with
  | frame => exact absurd rfl hi
  | loadState g r n gbits => cases g <;> rfl
  | _ => rfl

theorem after_withInvert {i : Instr} (hi : i ≠ .toggleInvert) (s : State) (b : Bool) :
    (s.withInvert b).after i = (s.after i).withInvert b := by
  cases i with
  | toggleInvert => exact absurd rfl hi
  | loadState g r n gbits => cases g <;> cases r <;> rfl
  | _ => rfl

theorem after_withErr (i : Instr) (s : State) (b : Bool) : (s.withErr b).after i = (s.after i).withErr b := by
  cases i with
  | loadState g r n gbits => cases g <;> cases r <;> rfl
  | _ => rfl

theorem wasHighAfter_of_ne_frame {i : Instr} (hi : i ≠ .frame) (s : State) : s.wasHighAfter i = s.wasHigh := by
  cases i with
  | frame => exact absurd rfl hi
  | _ => rfl

theorem invertAfter_of_ne_toggleInvert {i : Instr} (hi : i ≠ .toggleInvert) (s : State) :
    s.invertAfter i = s.invert := by
  cases i with
  | toggleInvert => exact absurd rfl hi
  | _ => rfl

/-! Which commands write the range and a gate (R15, R16) -/

/-- A command that changes the range is one of the two that store `DATA` there. -/
theorem rangeAfter_ne {i : Instr} {s : State} (h : s.rangeAfter i ≠ s.range) :
    s.rangeAfter i = s.port.data ∧ (i = .setRange ∨ ∃ g n m, i = .loadState g true n m) := by
  cases i with
  | setRange => exact ⟨rfl, .inl rfl⟩
  | loadState g r n m =>
    cases r with
    | true => exact ⟨rfl, .inr ⟨g, n, m, rfl⟩⟩
    | false => exact absurd rfl h
  | _ => exact absurd rfl h

/-- A command that changes a gate is one of the four that write gates, a load only where it reaches the channel. -/
theorem gatesAfter_ne {i : Instr} {s : State} {c : Channel} (h : (s.gatesAfter i)[c] ≠ s.gates[c]) :
    i = .frame ∨ i = .resetGates ∨ i = .randomizeGates ∨ ∃ r n m, i = .loadState true r n m ∧ c.val < n := by
  cases i with
  | frame => exact .inl rfl
  | resetGates => exact .inr (.inl rfl)
  | randomizeGates => exact .inr (.inr (.inl rfl))
  | loadState g r n m =>
    cases g with
    | true =>
      have reaches : c.val < min n 16 := by
        by_contra hc
        exact h ((loadGates_gates s n m c).trans (if_neg hc))
      exact .inr (.inr (.inr ⟨r, n, m, rfl, by omega⟩))
    | false => exact absurd rfl h
  | _ => exact absurd rfl h

/-! What a step leaves: an idle step, a power-on reset, a command, or IllegalCommand -/

/-- The state in which a command runs: taken from its issuer's queue at its turn, and standing on the ports (R31, R32). -/
def State.taking (s : State) (who : Issuer) (tx : Transaction) : State :=
  ((s.withAgenda s.agenda.tail).withQueue who (s.queue who).tail).accept who tx

@[simp] theorem State.taking_wasHigh (s : State) (who : Issuer) (tx : Transaction) :
    (s.taking who tx).wasHigh = s.wasHigh := by
  simp [State.taking]
@[simp] theorem State.taking_gates (s : State) (who : Issuer) (tx : Transaction) : (s.taking who tx).gates = s.gates := by
  simp [State.taking]
@[simp] theorem State.taking_range (s : State) (who : Issuer) (tx : Transaction) : (s.taking who tx).range = s.range := by
  simp [State.taking]
@[simp] theorem State.taking_invert (s : State) (who : Issuer) (tx : Transaction) :
    (s.taking who tx).invert = s.invert := by
  simp [State.taking]
@[simp] theorem State.taking_err (s : State) (who : Issuer) (tx : Transaction) : (s.taking who tx).err = s.err := by
  simp [State.taking]
@[simp] theorem State.taking_port (s : State) (who : Issuer) (tx : Transaction) : (s.taking who tx).port = tx := rfl
@[simp] theorem State.taking_grant (s : State) (who : Issuer) (tx : Transaction) :
    (s.taking who tx).grant = some who := rfl

/-- The states a step from `s` may leave. -/
inductive State.StepsTo (s : State) : State → Prop where
  /-- no command was offered (log entry 3) -/
  | idle (hoffer : s.offered = none) (hpower : s.powersOn = false) : s.StepsTo (s.withAgenda s.agenda.tail).idle
  /-- power-on reset (R87) -/
  | powerOn (hoffer : s.offered = none) (hpower : s.powersOn = true) : s.StepsTo (s.withAgenda s.agenda.tail).powerOn
  /-- the command accepted has run (R42) -/
  | command (who : Issuer) (tx : Transaction) (i : Instr) (hoffer : s.offered = some (who, tx))
      (hpower : s.powersOn = false) (hdecode : decode tx.cmd = .command i) : s.StepsTo ((s.taking who tx).after i)
  /-- the word accepted is illegal (R76) -/
  | illegal (who : Issuer) (tx : Transaction) (why : IllegalReason) (hoffer : s.offered = some (who, tx))
      (hpower : s.powersOn = false) (hdecode : decode tx.cmd = .illegal why) :
      s.StepsTo (raiseIllegalCommand (s.taking who tx))

theorem accept_eq_taking {s : State} {who : Issuer} {tx : Transaction} {later : List Transaction} {rest : List Event}
    (ha : s.agenda = .issue who :: rest) (hq : s.queue who = tx :: later) :
    ((s.withAgenda rest).withQueue who later).accept who tx = s.taking who tx := by
  rw [State.taking, ha, hq, List.tail_cons, List.tail_cons]

/-- Every step is one of the four. -/
theorem stepsTo_of_step {s t : State} (h : step s = .next t) : s.StepsTo t := by
  obtain ⟨hoffer, hpower, hs⟩ | ⟨hoffer, hpower, hs⟩ | ⟨who, tx, later, rest, ha, hq, hpower, hoffer, hs⟩ := step_cases s
  · cases hs.symm.trans h
    exact .idle hoffer hpower
  · cases hs.symm.trans h
    exact .powerOn hoffer hpower
  · cases hdecode : decode tx.cmd with
    | command i =>
      rw [hs, serve_of_decode hdecode, accept_eq_taking ha hq, exec_eq_after] at h
      cases h
      exact .command who tx i hoffer hpower hdecode
    | illegal why =>
      rw [hs, serve_of_illegal hdecode, accept_eq_taking ha hq] at h
      cases h
      exact .illegal who tx why hoffer hpower hdecode

/-! The response (R21, R31) -/

theorem answered_of_resp_none {s : State} (h : s.resp = none) : s.answered :=
  fun r hr => absurd (h.symm.trans hr) (Option.some_ne_none r).symm

/-- A command issued and run leaves its response, of the state it leaves. -/
theorem answered_after {s : State} {i : Instr} (hgrant : s.grant.isSome = true) (hdecode : decode s.port.cmd = .command i) :
    (s.after i).answered :=
  fun _ hr => ⟨hgrant, i, hdecode, (responseOf_after i s).trans hr⟩

/-- Settles O50: a step leaves the response of the command it ran, and none where it ran no command. -/
theorem responseNeverTorn : Obligations.ResponseNeverTorn := by
  intro s t _ hstep
  cases stepsTo_of_step hstep with
  | idle => exact answered_of_resp_none rfl
  | powerOn => exact answered_of_resp_none rfl
  | command who tx i _ _ hdecode => exact answered_after rfl hdecode
  | illegal => exact answered_of_resp_none rfl

/-- Settles O51: the served read command's response is that of the state it leaves. -/
theorem answeredAtReset : Obligations.AnsweredAtReset := by
  refine ⟨answered_of_resp_none rfl, fun who tx i s hdecode hread => ?_⟩
  refine ⟨(s.accept who tx).after i, ?_, (responseOf_after i _).symm, ?_, rfl⟩
  · rw [serve_of_decode hdecode, exec_eq_after]
  · obtain rfl | ⟨ch, rfl⟩ := hread <;> rfl

/-! The rules of the block's fields (R14 to R17, R24) -/

/-- Settles O41: no field of the state after a command other than FRAME depends on the edge memory but itself. -/
theorem edgeMemoryHidden : Obligations.EdgeMemoryHidden := by
  refine ⟨fun i s b hi => ?_, fun c => Vector.getElem_replicate c.isLt⟩
  exact ⟨s.after i, exec_eq_after i s, wasHighAfter_of_ne_frame hi s, by rw [exec_eq_after, after_withWasHigh hi]⟩

/-- Settles O42: `invert` passes through every command but TOGGLE_INVERT, and `err` through every command. -/
theorem flagsHaveNoSideEffects : Obligations.FlagsHaveNoSideEffects := by
  refine ⟨fun i s b hi => ?_, fun i s b => ?_⟩
  · exact ⟨s.after i, exec_eq_after i s, invertAfter_of_ne_toggleInvert hi s, by
      rw [exec_eq_after, after_withInvert hi]⟩
  · exact ⟨s.after i, exec_eq_after i s, rfl, by rw [exec_eq_after, after_withErr]⟩

/-- Settles O43: of the four kinds of step only the one that runs a command can change the range. -/
theorem rangeWriters : Obligations.RangeWriters := by
  intro s t hpower hstep hrange
  cases stepsTo_of_step hstep with
  | idle => exact absurd rfl hrange
  | powerOn _ hon => exact absurd (hpower.symm.trans hon) Bool.false_ne_true
  | command who tx i hoffer _ hdecode =>
    rw [State.after_range, ← State.taking_range s who tx] at hrange
    obtain ⟨hdata, hwriter⟩ := rangeAfter_ne hrange
    refine ⟨who, tx, hoffer, hdata, ?_⟩
    obtain rfl | ⟨g, n, m, rfl⟩ := hwriter
    · exact .inl hdecode
    · exact .inr ⟨g, n, m, hdecode⟩
  | illegal who tx => exact absurd (State.taking_range s who tx) hrange

/-- Settles O44: of the four kinds of step only the one that runs a command can change a gate. -/
theorem gateWriters : Obligations.GateWriters := by
  intro s t c hpower hstep hgate
  cases stepsTo_of_step hstep with
  | idle => exact absurd rfl hgate
  | powerOn _ hon => exact absurd (hpower.symm.trans hon) Bool.false_ne_true
  | command who tx i hoffer _ hdecode =>
    rw [State.after_gates, ← State.taking_gates s who tx] at hgate
    refine ⟨who, tx, hoffer, ?_⟩
    obtain rfl | rfl | rfl | ⟨r, n, m, rfl, hreach⟩ := gatesAfter_ne hgate
    · exact .inl hdecode
    · exact .inr (.inl hdecode)
    · exact .inr (.inr (.inl hdecode))
    · exact .inr (.inr (.inr ⟨r, n, m, hdecode, hreach⟩))
  | illegal who tx => exact absurd (congrArg (·[c]) (State.taking_gates s who tx)) hgate

end Sys2Proof.Machine

namespace Sys2Proof.Machine

/-! A byte transport (R27, R29) -/

/-- A word is its four bytes, most significant first. -/
theorem append_bytes (w : Word) :
    w.extractLsb' 24 8 ++ w.extractLsb' 16 8 ++ w.extractLsb' 8 8 ++ w.extractLsb' 0 8 = w := by
  rw [BitVec.extractLsb'_append_extractLsb'_eq_extractLsb' (show 24 = 16 + 8 from rfl),
    BitVec.extractLsb'_append_extractLsb'_eq_extractLsb' (show 16 = 8 + 8 from rfl),
    BitVec.extractLsb'_append_extractLsb'_eq_extractLsb' (show 8 = 0 + 8 from rfl)]
  exact BitVec.extractLsb'_eq_self

/-- A transport reads a word's bytes back in the order in which it carried them. -/
theorem decodeBytes_bytesOfWord (order : Config.ByteOrder) (w : Word) (rest : List Byte) :
    decodeBytes order (bytesOfWord order w ++ rest) = .word (decode w) rest := by
  have same : decodeBytes order (bytesOfWord order w ++ rest) =
      .word (decode (w.extractLsb' 24 8 ++ w.extractLsb' 16 8 ++ w.extractLsb' 8 8 ++ w.extractLsb' 0 8)) rest := by
    cases order <;> rfl
  rw [same, append_bytes]

theorem decodeBytes_incomplete (order : Config.ByteOrder) {bytes : List Byte} (h : bytes.length < 4) :
    decodeBytes order bytes = .incomplete := by
  match bytes with
  | [] | [_] | [_, _] | [_, _, _] => rfl
  | _ :: _ :: _ :: _ :: _ => simp only [List.length_cons] at h; omega

/-- Settles O5: the four bytes of either order put the word together again, and three give none. -/
theorem transportCarriesWords : Obligations.TransportCarriesWords :=
  ⟨decodeBytes_bytesOfWord, fun order _ => decodeBytes_incomplete order⟩

/-! The service of any word, legal or not, as a function of the state (R31, R34, R42) -/

/-- The state after the service of a word: its command's, or IllegalCommand's. -/
def State.served (s : State) (who : Issuer) (tx : Transaction) : State :=
  match decode tx.cmd with
  | .command i => (s.accept who tx).after i
  | .illegal _ => raiseIllegalCommand (s.accept who tx)

theorem State.served_of_decode {tx : Transaction} {i : Instr} (h : decode tx.cmd = .command i) (s : State)
    (who : Issuer) : s.served who tx = (s.accept who tx).after i := by
  rw [State.served, h]

theorem State.served_of_illegal {tx : Transaction} {why : IllegalReason} (h : decode tx.cmd = .illegal why) (s : State)
    (who : Issuer) : s.served who tx = raiseIllegalCommand (s.accept who tx) := by
  rw [State.served, h]

/-- The service of a word completes, whatever the word. -/
theorem serve_eq_served (who : Issuer) (tx : Transaction) (s : State) : serve who tx s = .next (s.served who tx) := by
  cases h : decode tx.cmd with
  | command i => rw [serve_of_decode h, exec_eq_after, State.served_of_decode h]
  | illegal why => rw [serve_of_illegal h, State.served_of_illegal h]

/-- The word served stands on the ports, and what waits to be served stays. -/
theorem State.served_environment (s : State) (who : Issuer) (tx : Transaction) :
    (s.served who tx).port = tx ∧ (s.served who tx).agenda = s.agenda ∧
      ∀ other, (s.served who tx).queue other = s.queue other := by
  cases h : decode tx.cmd with
  | command i => rw [State.served_of_decode h]; exact ⟨rfl, rfl, fun _ => rfl⟩
  | illegal why => rw [State.served_of_illegal h]; exact ⟨rfl, rfl, fun _ => rfl⟩

/-- Settles O11: an idle step and a power-on reset complete, and so does the service of any word. -/
theorem everyCommandCompletes : Obligations.EveryCommandCompletes := by
  refine ⟨fun i s => ⟨s.after i, exec_eq_after i s⟩, fun s => ?_⟩
  obtain ⟨-, -, hidle⟩ | ⟨-, -, hpower⟩ | ⟨who, tx, later, rest, -, -, -, -, hserve⟩ := step_cases s
  · exact ⟨_, hidle⟩
  · exact ⟨_, hpower⟩
  · exact ⟨_, hserve.trans (serve_eq_served who tx _)⟩

/-! Commands run twice (R30) -/

/-- Gates once loaded are not changed by the same load. -/
theorem loadGates_gates_of_loaded {s t : State} {n : Nat} {m : Mask} (h : t.gates = (s.loadGates n m).gates) :
    (t.loadGates n m).gates = t.gates := by
  ext c hc
  have again := loadGates_gates t n m ⟨c, hc⟩
  have once := loadGates_gates s n m ⟨c, hc⟩
  rw [← h] at once
  by_cases reached : c < min n 16
  · exact (again.trans (if_pos reached)).trans (once.trans (if_pos reached)).symm
  · exact again.trans (if_neg reached)

/-- A second LOAD_STATE with the same operands changes nothing. -/
theorem after_loadState_twice (s : State) (g r : Bool) (n : Nat) (m : Mask) :
    (s.after (.loadState g r n m)).after (.loadState g r n m) = s.after (.loadState g r n m) := by
  have gates : (s.after (.loadState g r n m)).gatesAfter (.loadState g r n m) = (s.after (.loadState g r n m)).gates := by
    cases g with
    | true => exact loadGates_gates_of_loaded rfl
    | false => rfl
  have range : (s.after (.loadState g r n m)).rangeAfter (.loadState g r n m) = (s.after (.loadState g r n m)).range := by
    cases r <;> rfl
  rw [State.after, gates, range]
  rfl

/-- Settles O31: after each of the five, every field already has the value the command gives it. -/
theorem idempotentCommands : Obligations.IdempotentCommands := by
  intro i s hi
  refine ⟨s.after i, exec_eq_after i s, (exec_eq_after i _).trans (congrArg _ ?_), fun hread => ?_⟩
  · obtain rfl | rfl | rfl | ⟨ch, rfl⟩ | ⟨g, r, n, m, rfl⟩ := hi
    · rfl
    · rfl
    · rfl
    · rfl
    · exact after_loadState_twice s g r n m
  · obtain rfl | ⟨ch, rfl⟩ := hread <;> rfl

/-! The issuers' own orders, and the one order in which their commands run (R32, R83) -/

/-- Settles O46: a step that serves a command takes the head of its issuer's queue; no other step touches a queue. -/
theorem ownOrderKept : Obligations.OwnOrderKept := by
  intro s t hstep
  obtain ⟨hoffer, -, hs⟩ | ⟨hoffer, -, hs⟩ | ⟨who, tx, later, rest, ha, hq, -, hoffer, hs⟩ := step_cases s
  · cases hs.symm.trans hstep
    exact ⟨rfl, .inl ⟨hoffer, rfl, rfl⟩⟩
  · cases hs.symm.trans hstep
    exact ⟨rfl, .inl ⟨hoffer, rfl, rfl⟩⟩
  · cases (hs.trans (serve_eq_served who tx _)).symm.trans hstep
    obtain ⟨hport, hagenda, hqueue⟩ := State.served_environment ((s.withAgenda rest).withQueue who later) who tx
    refine ⟨by simp [hagenda, ha], .inr ⟨who, tx, hoffer, by simp [hqueue, hq], hport, fun other hother => ?_⟩⟩
    exact (hqueue other).trans (State.withQueue_queue_other _ hother later)

/-- The state in which the commands of a serial order wait, each in its issuer's queue and at its turn of the agenda. -/
def State.awaiting (s : State) (order : List (Issuer × Transaction)) : State :=
  { s with
    realTime := issuedBy .realTime order
    control := issuedBy .control order
    agenda := order.map fun p => .issue p.1 }

@[simp] theorem issuedBy_cons_same (who : Issuer) (tx : Transaction) (order : List (Issuer × Transaction)) :
    issuedBy who ((who, tx) :: order) = tx :: issuedBy who order := by
  simp [issuedBy]

theorem issuedBy_cons_other {who other : Issuer} (h : who ≠ other) (tx : Transaction)
    (order : List (Issuer × Transaction)) : issuedBy other ((who, tx) :: order) = issuedBy other order := by
  simp [issuedBy, h]

@[simp] theorem State.awaiting_queue (s : State) (order : List (Issuer × Transaction)) (who : Issuer) :
    (s.awaiting order).queue who = issuedBy who order := by
  cases who <;> rfl

/-- Taking the first command of the order away leaves the others waiting. -/
theorem State.awaiting_tail (s : State) (who : Issuer) (tx : Transaction) (order : List (Issuer × Transaction)) :
    ((s.awaiting ((who, tx) :: order)).withAgenda (order.map fun p => .issue p.1)).withQueue who (issuedBy who order) =
      s.awaiting order := by
  cases who with
  | realTime =>
    have other : issuedBy .control ((.realTime, tx) :: order) = issuedBy .control order :=
      issuedBy_cons_other (by decide) tx order
    simp only [State.awaiting, State.withAgenda, State.withQueue, other]
  | control =>
    have other : issuedBy .realTime ((.control, tx) :: order) = issuedBy .realTime order :=
      issuedBy_cons_other (by decide) tx order
    simp only [State.awaiting, State.withAgenda, State.withQueue, other]

/-- No command reads or writes what is waiting. -/
theorem after_awaiting (s : State) (order : List (Issuer × Transaction)) (i : Instr) :
    (s.awaiting order).after i = (s.after i).awaiting order := by
  cases i with
  | loadState g r n gbits => cases g <;> cases r <;> rfl
  | _ => rfl

/-- Nor does the service of any word. -/
theorem State.served_awaiting (s : State) (order : List (Issuer × Transaction)) (who : Issuer) (tx : Transaction) :
    (s.awaiting order).served who tx = (s.served who tx).awaiting order := by
  cases h : decode tx.cmd with
  | command i =>
    rw [State.served_of_decode h, State.served_of_decode h]
    exact after_awaiting (s.accept who tx) order i
  | illegal why => rw [State.served_of_illegal h, State.served_of_illegal h]; rfl

/-- A step serves the first command of the order. -/
theorem step_awaiting_cons (s : State) (who : Issuer) (tx : Transaction) (order : List (Issuer × Transaction)) :
    step (s.awaiting ((who, tx) :: order)) = .next ((s.served who tx).awaiting order) := by
  have hq : (s.awaiting ((who, tx) :: order)).queue who = tx :: issuedBy who order := by simp
  rw [step_of_issue rfl hq, State.awaiting_tail, serve_eq_served, State.served_awaiting]

theorem serially_cons (who : Issuer) (tx : Transaction) (order : List (Issuer × Transaction)) (s : State) :
    serially ((who, tx) :: order) s = serially order (s.served who tx) := by
  rw [serially, serve_eq_served]

/-- The machine runs the commands that wait as the serial run of their order does. -/
theorem run_awaiting (order : List (Issuer × Transaction)) (s : State) : ∃ t, serially order s = .next t ∧
    Host.Core.run Sys2Proof.core order.length (s.awaiting order) = .next (t.awaiting []) := by
  induction order generalizing s with
  | nil => exact ⟨s, rfl, rfl⟩
  | cons p order ih =>
    obtain ⟨who, tx⟩ := p
    obtain ⟨t, hserial, hrun⟩ := ih (s.served who tx)
    refine ⟨t, (serially_cons who tx order s).trans hserial, ?_⟩
    exact (run_succ_of_next (step_awaiting_cons s who tx order)).trans hrun

/-- Settles O47: the state is the one in which the commands of the order wait, so it runs them in that order. -/
theorem everyInterleavingAdmitted : Obligations.EveryInterleavingAdmitted := by
  intro order s hrealTime hcontrol hagenda
  obtain ⟨t, hserial, hrun⟩ := run_awaiting order s
  have waiting : s.awaiting order = s := by rw [State.awaiting, ← hrealTime, ← hcontrol, ← hagenda]
  rw [waiting] at hrun
  exact ⟨t, hserial, hrun⟩

end Sys2Proof.Machine

namespace Sys2Proof.Machine

/-! Decoding undoes encoding: one fact per format, then one case per command (R36 to R42) -/

theorem decodeC_encodeC (i : Instr) (op : BitVec 4) : decodeC i (encodeC op) = .command i :=
  decodeC_eq_command.mpr ⟨(encodeC_fields op).2, rfl⟩

theorem decodeR_encodeR (mk : Channel → Instr) (op : BitVec 4) (ch : Channel) :
    decodeR mk (encodeR op ch) = .command (mk ch) := by
  obtain ⟨-, hreserved, hch⟩ := encodeR_fields op ch
  exact decodeR_eq_command.mpr ⟨hreserved, congrArg mk hch⟩

theorem decodeL_encodeL (op : BitVec 4) (g r : Bool) {n : Nat} (m : Mask) (hn : n ≤ 255) :
    decodeL (encodeL op g r n m) = .command (.loadState g r n m) := by
  obtain ⟨-, hreserved, hg, hr, hcount, hgbits⟩ := encodeL_fields op g r m hn
  exact decodeL_eq_command.mpr ⟨hreserved, by rw [hg, hr, hcount, hgbits]⟩

theorem opcode_encodeC (op : BitVec 4) : opcode (encodeC op) = op := (encodeC_fields op).1

/-- Settles O2: the encoding carries the command's opcode, which selects the format whose fields give the operands back. -/
theorem decodeOfEncode : Obligations.DecodeOfEncode := by
  intro i hi
  cases i with
  | frame => exact (decode_one (opcode_encodeC 1)).trans (decodeC_encodeC _ 1)
  | readGate ch => exact (decode_two (encodeR_fields 2 ch).1).trans (decodeR_encodeR _ 2 ch)
  | resetGates => exact (decode_three (opcode_encodeC 3)).trans (decodeC_encodeC _ 3)
  | randomizeGates => exact (decode_four (opcode_encodeC 4)).trans (decodeC_encodeC _ 4)
  | toggleInvert => exact (decode_five (opcode_encodeC 5)).trans (decodeC_encodeC _ 5)
  | setRange => exact (decode_six (opcode_encodeC 6)).trans (decodeC_encodeC _ 6)
  | saveState => exact (decode_seven (opcode_encodeC 7)).trans (decodeC_encodeC _ 7)
  | loadState g r n gbits =>
    have hn : n ≤ 255 := of_decide_eq_true hi
    exact (decode_eight (encodeL_fields 8 g r gbits hn).1).trans (decodeL_encodeL 8 g r gbits hn)

/-! Encoding undoes decoding: a word whose reserved bits are zero is put together again from its fields (R37 to R39) -/

theorem encodeC_opcode {w : Word} (h : w.extractLsb' 0 28 = 0) : encodeC (opcode w) = w := by
  have parts : opcode w ++ w.extractLsb' 0 28 = w := by
    rw [opcode, BitVec.extractLsb'_append_extractLsb'_eq_extractLsb' (show 28 = 0 + 28 from rfl)]
    exact BitVec.extractLsb'_eq_self
  rwa [h] at parts

theorem encodeR_opcode {w : Word} (h : w.extractLsb' 4 24 = 0) : encodeR (opcode w) (channelField w) = w := by
  have parts : opcode w ++ w.extractLsb' 4 24 ++ w.extractLsb' 0 4 = w := by
    rw [opcode, BitVec.extractLsb'_append_extractLsb'_eq_extractLsb' (show 28 = 4 + 24 from rfl),
      BitVec.extractLsb'_append_extractLsb'_eq_extractLsb' (show 4 = 0 + 4 from rfl)]
    exact BitVec.extractLsb'_eq_self
  have channel : BitVec.ofNat 4 (channelField w).val = w.extractLsb' 0 4 :=
    (BitVec.ofNat_toNat 4 _).trans (BitVec.setWidth_eq _)
  rw [encodeR, channel]
  rwa [h] at parts

theorem countField_le (w : Word) : countField w ≤ 255 := Nat.le_of_lt_succ (w.extractLsb' 16 8).isLt

theorem encodeL_opcode {w : Word} (h : w.extractLsb' 24 2 = 0) :
    encodeL (opcode w) (gatesPresentField w) (rangePresentField w) (countField w) (gbitsField w) = w := by
  have count : BitVec.ofNat 8 (countField w) = w.extractLsb' 16 8 :=
    (BitVec.ofNat_toNat 8 _).trans (BitVec.setWidth_eq _)
  apply BitVec.eq_of_getLsbD_eq
  intro k hk
  rw [encodeL_bit, count]
  split_ifs with h16 h24 h26 hr hg
  · simp [gbitsField, h16]
  · simp [show k - 16 < 8 by omega, show 16 + (k - 16) = k by omega]
  · exact (bit_of_field_zero h k (by omega) (by omega)).symm
  · rw [hr]; rfl
  · rw [hg]; rfl
  · exact (opcode_bit w k (by omega) hk).symm

/-! The four forms of decoding, of which every word has one (R41, R43) -/

/-- The opcodes of format C (R37). -/
def IsOpcodeC (op : BitVec 4) : Prop := op = 1 ∨ op = 3 ∨ op = 4 ∨ op = 5 ∨ op = 6 ∨ op = 7

/-- The opcodes of no command (R43). -/
def IsOpcodeReserved (op : BitVec 4) : Prop := op = 0 ∨ 9 ≤ op.toNat

theorem opcode_kinds (op : BitVec 4) : IsOpcodeReserved op ∨ IsOpcodeC op ∨ op = 2 ∨ op = 8 := by
  unfold IsOpcodeReserved IsOpcodeC
  revert op; decide

/-- An opcode of format C selects one command, which has no operand. -/
theorem decode_of_isOpcodeC {w : Word} (h : IsOpcodeC (opcode w)) :
    ∃ i, decode w = decodeC i w ∧ encode i = encodeC (opcode w) ∧ WellFormed i := by
  obtain h | h | h | h | h | h := h
  · exact ⟨.frame, decode_one h, by rw [h]; rfl, rfl⟩
  · exact ⟨.resetGates, decode_three h, by rw [h]; rfl, rfl⟩
  · exact ⟨.randomizeGates, decode_four h, by rw [h]; rfl, rfl⟩
  · exact ⟨.toggleInvert, decode_five h, by rw [h]; rfl, rfl⟩
  · exact ⟨.setRange, decode_six h, by rw [h]; rfl, rfl⟩
  · exact ⟨.saveState, decode_seven h, by rw [h]; rfl, rfl⟩

/-- Settles O3: in each format the reserved bits checked are zero, so the fields read make up the whole word. -/
theorem encodeOfDecode : Obligations.EncodeOfDecode := by
  intro w i hdecode
  obtain hop | hop | hop | hop := opcode_kinds (opcode w)
  · exact absurd ((decode_reserved hop).symm.trans hdecode) (by simp)
  · obtain ⟨j, hform, hencode, hwf⟩ := decode_of_isOpcodeC hop
    obtain ⟨hreserved, rfl⟩ := decodeC_eq_command.mp (hform.symm.trans hdecode)
    exact ⟨hencode.trans (encodeC_opcode hreserved), hwf⟩
  · obtain ⟨hreserved, rfl⟩ := decodeR_eq_command.mp ((decode_two hop).symm.trans hdecode)
    rw [encode, ← hop]
    exact ⟨encodeR_opcode hreserved, rfl⟩
  · obtain ⟨hreserved, rfl⟩ := decodeL_eq_command.mp ((decode_eight hop).symm.trans hdecode)
    rw [encode, ← hop]
    exact ⟨encodeL_opcode hreserved, decide_eq_true (countField_le w)⟩

/-! Which words are illegal (R43, R44) -/

theorem decodeC_eq_illegal {i : Instr} {w : Word} (h : w.extractLsb' 0 28 ≠ 0) :
    decodeC i w = .illegal .reservedBits := if_neg h

theorem decodeR_eq_illegal {mk : Channel → Instr} {w : Word} (h : w.extractLsb' 4 24 ≠ 0) :
    decodeR mk w = .illegal .reservedBits := if_neg h

theorem decodeL_eq_illegal {w : Word} (h : w.extractLsb' 24 2 ≠ 0) : decodeL w = .illegal .reservedBits := if_neg h

/-- A reserved opcode, or a reserved bit of the opcode's format set, by the fields the decoder reads. -/
def IsIllegalWord (w : Word) : Prop :=
  IsOpcodeReserved (opcode w) ∨ (IsOpcodeC (opcode w) ∧ w.extractLsb' 0 28 ≠ 0) ∨
    (opcode w = 2 ∧ w.extractLsb' 4 24 ≠ 0) ∨ (opcode w = 8 ∧ w.extractLsb' 24 2 ≠ 0)

theorem decode_of_isIllegalWord {w : Word} (h : IsIllegalWord w) : ∃ why, decode w = .illegal why := by
  obtain hop | ⟨hop, hbits⟩ | ⟨hop, hbits⟩ | ⟨hop, hbits⟩ := h
  · exact ⟨_, decode_reserved hop⟩
  · obtain ⟨i, hform, -, -⟩ := decode_of_isOpcodeC hop
    exact ⟨_, hform.trans (decodeC_eq_illegal hbits)⟩
  · exact ⟨_, (decode_two hop).trans (decodeR_eq_illegal hbits)⟩
  · exact ⟨_, (decode_eight hop).trans (decodeL_eq_illegal hbits)⟩

theorem decode_of_not_isIllegalWord {w : Word} (h : ¬IsIllegalWord w) : ∃ i, decode w = .command i := by
  simp only [IsIllegalWord, not_or, not_and, not_not] at h
  obtain ⟨hopcode, hC, hR, hL⟩ := h
  obtain hop | hop | hop | hop := opcode_kinds (opcode w)
  · exact absurd hop hopcode
  · obtain ⟨i, hform, -, -⟩ := decode_of_isOpcodeC hop
    exact ⟨i, hform.trans (decodeC_eq_command.mpr ⟨hC hop, rfl⟩)⟩
  · exact ⟨_, (decode_two hop).trans (decodeR_eq_command.mpr ⟨hR hop, rfl⟩)⟩
  · exact ⟨_, (decode_eight hop).trans (decodeL_eq_command.mpr ⟨hL hop, rfl⟩)⟩

/-- The opcode, shifted down. -/
theorem toNat_shiftRight_opcode (w : Word) : (w >>> 28).toNat = (opcode w).toNat := by
  have top : w.toNat >>> 28 < 2 ^ 4 := by omega
  rw [BitVec.toNat_ushiftRight, opcode, BitVec.extractLsb'_toNat, Nat.mod_eq_of_lt top]

/-- The opcode compared, as rules R43 and R44 write it. -/
theorem opcode_eq_iff (w : Word) (op : BitVec 4) : opcode w = op ↔ w >>> 28 = op.setWidth 32 := by
  rw [← BitVec.toNat_inj, ← BitVec.toNat_inj, toNat_shiftRight_opcode, BitVec.toNat_setWidth,
    Nat.mod_eq_of_lt (show op.toNat < 2 ^ 32 by omega)]

/-- A field is zero when the word has no bit in common with the field's mask. -/
theorem and_mask_eq_zero_iff (w : Word) (lo len : Nat) (h : lo + len ≤ 32) :
    w &&& (BitVec.allOnes len).setWidth 32 <<< lo = 0 ↔ w.extractLsb' lo len = 0 := by
  constructor
  · intro hz
    apply BitVec.eq_of_getLsbD_eq
    intro k hk
    have := congrArg (·.getLsbD (lo + k)) hz
    simpa [hk, show lo + k < 32 by omega] using this
  · intro hz
    apply BitVec.eq_of_getLsbD_eq
    intro k hk
    by_cases hfield : lo ≤ k ∧ k < lo + len
    · simp [bit_of_field_zero hz k hfield.1 hfield.2]
    · have outside : lo ≤ k → ¬k - lo < len := by omega
      simp +contextual [outside]

theorem isOpcodeReserved_iff (w : Word) :
    IsOpcodeReserved (opcode w) ↔ w >>> 28 = 0 ∨ 9 ≤ (w >>> 28).toNat := by
  rw [toNat_shiftRight_opcode]
  exact or_congr_left (opcode_eq_iff w 0)

theorem isOpcodeC_iff (w : Word) : IsOpcodeC (opcode w) ↔
    w >>> 28 = 1 ∨ w >>> 28 = 3 ∨ w >>> 28 = 4 ∨ w >>> 28 = 5 ∨ w >>> 28 = 6 ∨ w >>> 28 = 7 := by
  simp only [IsOpcodeC, opcode_eq_iff]
  rfl

/-- The words rules R43 and R44 call illegal, by the masks of the formats' reserved bits. -/
theorem isIllegalWord_iff (w : Word) : IsIllegalWord w ↔
    (w >>> 28 = 0 ∨ 9 ≤ (w >>> 28).toNat) ∨
      ((w >>> 28 = 1 ∨ w >>> 28 = 3 ∨ w >>> 28 = 4 ∨ w >>> 28 = 5 ∨ w >>> 28 = 6 ∨ w >>> 28 = 7) ∧
        w &&& 0x0FFFFFFF ≠ 0) ∨
      (w >>> 28 = 2 ∧ w &&& 0x0FFFFFF0 ≠ 0) ∨ (w >>> 28 = 8 ∧ w &&& 0x03000000 ≠ 0) :=
  or_congr (isOpcodeReserved_iff w) <|
    or_congr (and_congr (isOpcodeC_iff w) (not_congr (and_mask_eq_zero_iff w 0 28 (by decide)).symm)) <|
    or_congr (and_congr (opcode_eq_iff w 2) (not_congr (and_mask_eq_zero_iff w 4 24 (by decide)).symm))
      (and_congr (opcode_eq_iff w 8) (not_congr (and_mask_eq_zero_iff w 24 2 (by decide)).symm))

/-- Settles O4: R43 and R44 compare the opcode and mask the reserved bits of the very fields the decoder reads. -/
theorem illegalWordsExactly : Obligations.IllegalWordsExactly := by
  intro w s
  split_ifs with h
  · obtain ⟨why, hdecode⟩ := decode_of_isIllegalWord ((isIllegalWord_iff w).mpr h)
    rw [runWord, hdecode]
    rfl
  · obtain ⟨i, hdecode⟩ := decode_of_not_isIllegalWord (mt (isIllegalWord_iff w).mp h)
    exact ⟨i, hdecode, by rw [runWord, hdecode]⟩

end Sys2Proof.Machine

namespace Sys2Proof.Machine

/-! The assembler: the commands its lines issue (R47, R48) -/

/-- The encoding of a well-formed instruction is legal, whatever stands on the ports. -/
theorem legal_of_cmd_eq_encode {t : Transaction} {i : Instr} (hi : WellFormed i) (ht : t.cmd = encode i) :
    t.legal = true := by
  rw [Transaction.legal, ht, decodeOfEncode i hi]

theorem frameCommand_legal (inp : Bank Word) : (frameCommand inp).legal = true :=
  legal_of_cmd_eq_encode (i := .frame) rfl rfl

theorem setRangeCommand_legal (v : Value) : (setRangeCommand v).legal = true :=
  legal_of_cmd_eq_encode (i := .setRange) rfl rfl

theorem bareCommand_encode_legal {i : Instr} (hi : WellFormed i) : (bareCommand (encode i)).legal = true :=
  legal_of_cmd_eq_encode hi rfl

/-- The count of an assembled LOAD_STATE is read from 8 bits, so it fits its field (R39, R47). -/
theorem loadCommand_legal (gates : Option (BitVec 8 × Mask)) (range : Option Value) :
    (loadCommand gates range).legal = true :=
  legal_of_cmd_eq_encode (i := .loadState _ _ _ _)
    (decide_eq_true (Nat.le_of_lt_succ (gates.getD (0, 0)).1.isLt)) rfl

/-- Settles O54: each kind of command a line is assembled from carries the encoding of a well-formed instruction. -/
theorem assembledLinesAreLegal : Obligations.AssembledLinesAreLegal := by
  intro l ts hraw hasm t ht
  cases l with
  | rawWord w => exact absurd rfl (hraw w)
  | frameSparse entries =>
    rw [AsmLine.assemble] at hasm
    split at hasm
    · cases hasm
      exact List.mem_singleton.mp ht ▸ frameCommand_legal _
    · cases hasm
  | pulse c =>
    cases hasm
    obtain rfl | rfl := List.mem_pair.mp ht <;> exact frameCommand_legal _
  | frame | idle | hold =>
    cases hasm
    exact List.mem_singleton.mp ht ▸ frameCommand_legal _
  | setRange | range5 | range10 =>
    cases hasm
    exact List.mem_singleton.mp ht ▸ setRangeCommand_legal _
  | loadState | restore =>
    cases hasm
    exact List.mem_singleton.mp ht ▸ loadCommand_legal _ _
  | randomizeGates draw =>
    cases hasm
    exact List.mem_singleton.mp ht ▸ legal_of_cmd_eq_encode (i := .randomizeGates) rfl rfl
  | readGate | resetGates | toggleInvert | saveState =>
    cases hasm
    exact List.mem_singleton.mp ht ▸ bareCommand_encode_legal rfl

/-- The word of LOAD_STATE that loads gates and range (R71). -/
theorem loadCommand_some_some_cmd (n : BitVec 8) (m : Mask) (v : Value) :
    (loadCommand (some (n, m)) (some v)).cmd = 0x8C000000 ||| n.setWidth 32 <<< 16 ||| m.setWidth 32 :=
  encodeL_eq_or true true n m

theorem Value.one_word : Value.one.word = 0x3F800000 := by decide
theorem Value.five_word : Value.five.word = 0x40A00000 := by decide
theorem Value.ten_word : Value.ten.word = 0x41200000 := by decide

/-- The word of LOAD_STATE that loads the range alone. -/
theorem loadCommand_none_some_cmd (v : Value) : (loadCommand none (some v)).cmd = 0x84000000 := by
  show encode (.loadState false true 0 0) = 0x84000000
  decide

/-- A sparse FRAME that lists no channel has every input +0.0. -/
theorem sparseInputs_nil (i : Channel) : (sparseInputs [])[i] = 0x00000000 :=
  sparseInputs_unlisted List.not_mem_nil

/-- A sparse FRAME that lists one channel. -/
theorem sparseInputs_singleton (c : Channel) (v : Value) (i : Channel) :
    (sparseInputs [(c, v)])[i] = if i = c then v.word else 0x00000000 := by
  split_ifs with h
  · subst h
    exact sparseInputs_listed (p := (i, v)) (by simp) (by simp)
  · exact sparseInputs_unlisted (by simpa using h)

/-- A sparse FRAME depends on the patterns its values stand for, not on how they are written. -/
theorem sparseInputs_singleton_congr (c : Channel) {v v' : Value} (h : v.word = v'.word) :
    sparseInputs [(c, v)] = sparseInputs [(c, v')] :=
  Vector.ext fun i hi => by
    have listed := sparseInputs_singleton c v ⟨i, hi⟩
    rw [h, ← sparseInputs_singleton c v' ⟨i, hi⟩] at listed
    exact listed

theorem setRangeCommand_congr {v v' : Value} (h : v.word = v'.word) : setRangeCommand v = setRangeCommand v' := by
  rw [setRangeCommand, h, setRangeCommand]

theorem assemble_frameSparse {entries : List (Channel × Value)} (h : (entries.map Prod.fst).Nodup) :
    (AsmLine.frameSparse entries).assemble = some [frameCommand (sparseInputs entries)] := if_pos h

/-- Settles O53: 1.0, 5.0 and 10.0 round to the patterns the expansions name, and the inputs are those of the sparse FRAME. -/
theorem pseudoExpansions : Obligations.PseudoExpansions := by
  refine ⟨⟨?_, fun c => ?_, fun c => rfl, ?_, ?_, fun g v => rfl⟩, ?_, fun c => ?_, fun c => ?_, ?_, ?_, fun g v => ?_⟩
  · rw [assemble_frameSparse (entries := []) List.nodup_nil, AsmLine.assemble]
  · rw [assemble_frameSparse (by simp), AsmLine.assemble,
      sparseInputs_singleton_congr c (v' := .pattern 0x3F800000) Value.one_word]
  · simp only [AsmLine.assemble, setRangeCommand_congr (v' := .pattern 0x40A00000) Value.five_word]
  · simp only [AsmLine.assemble, setRangeCommand_congr (v' := .pattern 0x41200000) Value.ten_word]
  · exact ⟨_, rfl, rfl, sparseInputs_nil⟩
  · exact ⟨_, rfl, rfl, fun i => Value.one_word ▸ sparseInputs_singleton c .one i⟩
  · exact ⟨_, _, rfl, rfl, rfl, fun i => ⟨Value.one_word ▸ sparseInputs_singleton c .one i, sparseInputs_nil i⟩⟩
  · exact ⟨_, rfl, rfl, Value.five_word⟩
  · exact ⟨_, rfl, rfl, Value.ten_word⟩
  · exact ⟨_, rfl, loadCommand_some_some_cmd 16 g v, rfl⟩

/-- The word of READ_GATE, `0x20000000 | CH` (R57). -/
theorem encodeR_eq_or (ch : Channel) : encodeR 0x2 ch = 0x20000000 ||| BitVec.ofNat 32 ch.val := by
  revert ch; decide

/-- `-0.0`, with however many digits after the point. -/
theorem Value.negZero_word (places : Nat) : (Value.decimal true 0 places).word = 0x80000000 := by
  rw [Value.word, nearestMagnitude, if_pos rfl]
  decide

/-- Settles O55: a line's ports are set by the command it builds; the words with operands are those of their formats. -/
theorem baseLineCommands : Obligations.BaseLineCommands := by
  refine ⟨fun vs => ?_, fun entries hnodup => ?_, fun c => ⟨_, rfl, encodeR_eq_or c⟩, ⟨_, rfl, rfl⟩,
    fun draw => ⟨_, rfl, rfl, rfl⟩, ⟨_, rfl, rfl⟩, fun v => ⟨_, rfl, rfl, rfl⟩, ⟨_, rfl, rfl⟩,
    fun n m v => ⟨_, rfl, loadCommand_some_some_cmd n m v, rfl⟩, fun n m => ⟨_, rfl, encodeL_eq_or true false n m⟩,
    fun v => ⟨_, rfl, loadCommand_none_some_cmd v, rfl⟩, ⟨_, rfl, rfl⟩, fun w => ⟨_, rfl, rfl, rfl, rfl, fun i => ?_⟩,
    fun w => rfl, rfl, rfl, Value.negZero_word⟩
  · exact ⟨_, rfl, rfl, fun i => Vector.getElem_map ..⟩
  · exact ⟨_, assemble_frameSparse hnodup, rfl, fun p hp => sparseInputs_listed hnodup hp,
      fun i hi => sparseInputs_unlisted hi⟩
  · exact Vector.getElem_replicate i.isLt

end Sys2Proof.Machine

namespace Sys2Proof.Machine

/-! The host's word (log entry 3) and the words of table V-ENC -/

/-- A word of all 32 bits is the word itself. -/
theorem tableWord_width (w : Nat) : tableWord 32 w = BitVec.ofNat 32 w :=
  BitVec.eq_of_toNat_eq (by simp [tableWord])

/-- Settles O10: the word has the next turn and heads its queue, so the step serves it. -/
theorem fetchWordRunsNext : Obligations.FetchWordRunsNext := by
  intro s w
  rw [State.withFetchWord, tableWord_width, step_of_issue rfl rfl]
  rfl

/-- Settles O1: the decoder runs on each of the ten words. -/
theorem decodedWords : Obligations.DecodedWords := by
  unfold Obligations.DecodedWords
  decide

/-! What a command does not read (R45) -/

/-- A load of the gates reads the bits of GBITS below `min(N, 16)` alone. -/
theorem loadGates_congr (s : State) {n : Nat} {m m' : Mask}
    (h : ∀ i : Channel, i.val < min n 16 → m.getLsbD i = m'.getLsbD i) :
    s.loadGates n m = s.loadGates n m' := by
  have gates : (s.loadGates n m).gates = (s.loadGates n m').gates := by
    ext c hc
    refine ((loadGates_gates s n m ⟨c, hc⟩).trans ?_).trans (loadGates_gates s n m' ⟨c, hc⟩).symm
    split_ifs with hreach
    · exact h ⟨c, hc⟩ hreach
    · rfl
  rw [loadGates_eq, gates, ← loadGates_eq]

/-- A command reads no operand port but those rule R45 names for it, and leaves the ports as they are. -/
theorem after_withPort {i : Instr} {s : State} {p : Transaction} (h : portsAgree i s.port p) :
    (s.withPort p).after i = (s.after i).withPort p := by
  cases i with
  | frame =>
    have inputs : (s.withPort p).port.inp = s.port.inp := h.symm
    rw [State.after, State.wasHighAfter, State.gatesAfter, inputs]
    rfl
  | randomizeGates =>
    have draw : (s.withPort p).randPort = s.randPort := funext fun c => congrArg (·[c]) h.symm
    rw [State.after, State.gatesAfter, draw]
    rfl
  | setRange =>
    have data : (s.withPort p).dataPort = s.dataPort := h.symm
    rw [State.after, State.rangeAfter, data]
    rfl
  | loadState g r n m =>
    cases r with
    | false => cases g <;> rfl
    | true =>
      have data : (s.withPort p).dataPort = s.dataPort := (h rfl).symm
      rw [State.after, State.rangeAfter, data]
      cases g <;> rfl
  | _ => rfl

/-- Settles O30: a load without G leaves the gates, one with G reads the bits it writes, and no command reads another's ports. -/
theorem dontCaresIgnored : Obligations.DontCaresIgnored := by
  refine ⟨fun s r n n' m m' => ?_, fun s g r n m m' h => ?_, fun i s p h => ⟨s.after i, exec_eq_after i s, ?_⟩⟩
  · simp only [exec, execLoadState_eq, Bool.false_eq_true, if_false]
  · rw [exec, exec, execLoadState_eq, execLoadState_eq, loadGates_congr s h]
  · rw [exec_eq_after, after_withPort h]

end Sys2Proof.Machine

namespace Sys2Proof.Machine

/-! The order of the lanes of a frame (R50) -/

/-- Two states that differ from one state at most in the edge memory and the gates, and agree there, are the same. -/
theorem State.sameBut.eq_of_banks {s t u : State} (ht : s.sameBut t) (hu : s.sameBut u)
    (high : ∀ c : Channel, t.wasHigh[c] = u.wasHigh[c]) (gate : ∀ c : Channel, t.gates[c] = u.gates[c]) : t = u := by
  have hhigh : t.wasHigh = u.wasHigh := Vector.ext fun c hc => high ⟨c, hc⟩
  have hgate : t.gates = u.gates := Vector.ext fun c hc => gate ⟨c, hc⟩
  rw [ht, hhigh, hgate, ← hu]

/-- Two orders of the same distinct lanes do the same: only which channels are listed counts. -/
theorem frameLanes_perm {order order' : List Channel} (h : order.Perm order') (hnodup : order.Nodup) (s : State) :
    frameLanes order s = frameLanes order' s := by
  obtain ⟨same, high, gate⟩ := frameLanes_spec hnodup s
  obtain ⟨same', high', gate'⟩ := frameLanes_spec (h.nodup hnodup) s
  refine same.eq_of_banks same' (fun c => ?_) fun c => ?_
  · simp only [high, high', h.mem_iff]
  · simp only [gate, gate', h.mem_iff]

/-! One FRAME, channel by channel (R49, R52, R56) -/

theorem wasHighAfter_frame (s : State) (c : Channel) : (s.wasHighAfter .frame)[c] = truthy s.port.inp[c] :=
  Vector.getElem_ofFn c.isLt

theorem gatesAfter_frame (s : State) (c : Channel) :
    (s.gatesAfter .frame)[c] = (s.gates[c] ^^ (truthy s.port.inp[c] && !s.wasHigh[c])) :=
  Vector.getElem_ofFn c.isLt

/-- Settles O15: the fields FRAME writes are those of the statement. -/
theorem frameResult : Obligations.FrameResult := exec_eq_after .frame

/-- Settles O16: the 16 lanes do the same in every order, and a channel's new fields come from its own input and old fields. -/
theorem frameLaneOrderInvisible : Obligations.FrameLaneOrderInvisible := by
  refine ⟨fun s order h => ?_, fun s s' c hinp hhigh hgate => ?_⟩
  · rw [frameLanes_perm h (h.nodup_iff.mpr (List.nodup_finRange 16)), exec, execFrame, State.withResp]
  · refine ⟨s.after .frame, s'.after .frame, exec_eq_after .frame s, exec_eq_after .frame s', ?_, ?_⟩
    · rw [State.after_wasHigh, State.after_wasHigh, wasHighAfter_frame, wasHighAfter_frame, hinp]
    · rw [State.after_gates, State.after_gates, gatesAfter_frame, gatesAfter_frame, hinp, hhigh, hgate]

/-! Sequences of FRAMEs (R54) -/

/-- The state after one FRAME on these inputs. -/
def State.afterFrame (s : State) (v : Bank Word) : State := (s.withInputs v).after .frame

theorem exec_frame_withInputs (s : State) (v : Bank Word) : exec .frame (s.withInputs v) = .next (s.afterFrame v) :=
  exec_eq_after .frame _

@[simp] theorem State.afterFrame_range (s : State) (v : Bank Word) : (s.afterFrame v).range = s.range := rfl
@[simp] theorem State.afterFrame_invert (s : State) (v : Bank Word) : (s.afterFrame v).invert = s.invert := rfl
@[simp] theorem State.afterFrame_err (s : State) (v : Bank Word) : (s.afterFrame v).err = s.err := rfl
theorem State.afterFrame_wasHigh (s : State) (v : Bank Word) (c : Channel) :
    (s.afterFrame v).wasHigh[c] = truthy v[c] := wasHighAfter_frame _ c
theorem State.afterFrame_gates (s : State) (v : Bank Word) (c : Channel) :
    (s.afterFrame v).gates[c] = (s.gates[c] ^^ (truthy v[c] && !s.wasHigh[c])) := gatesAfter_frame _ c

theorem runFrames_cons (v : Bank Word) (vs : List (Bank Word)) (s : State) :
    runFrames (v :: vs) s = runFrames vs (s.afterFrame v) := by
  rw [runFrames, exec_frame_withInputs]

/-- The report at the first FRAME is the one by which the gate flips there. -/
theorem edgeReports_cons (i : Channel) (v : Bank Word) (vs : List (Bank Word)) (s : State) :
    edgeReports i (v :: vs) s = (truthy v[i] && !s.wasHigh[i]) :: edgeReports i vs (s.afterFrame v) := by
  rw [edgeReports, exec_frame_withInputs, edgeDetect]

/-- One more report changes the parity of the number of edges exactly when it reports one. -/
theorem odd_count_true_cons (e : Bool) (reports : List Bool) :
    decide ((e :: reports).count true % 2 = 1) = (e ^^ decide (reports.count true % 2 = 1)) := by
  cases e with
  | false => rw [List.count_cons_of_ne Bool.false_ne_true, Bool.false_xor]
  | true =>
    rw [List.count_cons_self, Bool.true_xor, ← decide_not, decide_eq_decide]
    omega

/-- Settles O19, by induction on the frames: the first flips the gate by its own report, and the rest by theirs. -/
theorem gateFlipsOncePerEdge : Obligations.GateFlipsOncePerEdge := by
  intro frames
  induction frames with
  | nil => exact fun s => ⟨s, rfl, rfl, rfl, rfl, fun i => ⟨(Bool.xor_false _).symm, rfl⟩⟩
  | cons v vs ih =>
    intro s
    obtain ⟨t, hrun, hrange, hinvert, herr, hchannel⟩ := ih (s.afterFrame v)
    refine ⟨t, (runFrames_cons v vs s).trans hrun, hrange.trans (s.afterFrame_range v),
      hinvert.trans (s.afterFrame_invert v), herr.trans (s.afterFrame_err v), fun i => ?_⟩
    obtain ⟨hgate, hhigh⟩ := hchannel i
    constructor
    · rw [hgate, State.afterFrame_gates, edgeReports_cons, odd_count_true_cons, Bool.xor_assoc]
    · rw [hhigh, State.afterFrame_wasHigh, List.getLast?_cons]
      exact Option.getD_map (fun u : Bank Word => truthy u[i]) v vs.getLast?

end Sys2Proof.Machine

namespace Sys2Proof.Machine

/-! Truthiness (R51) -/

theorem truthy_eq_false_iff (w : Word) : truthy w = false ↔ w.extractLsb' 0 31 = 0 := by
  rw [truthy, isZero32, Bool.not_eq_false', decide_eq_true_iff]

/-- Only the sign bit lies outside `w[30:0]`, so two patterns have these bits all zero: +0.0 and -0.0. -/
theorem extractLsb'_magnitude_eq_zero_iff (w : Word) :
    w.extractLsb' 0 31 = 0 ↔ w = 0x00000000 ∨ w = 0x80000000 := by
  have low : (w.extractLsb' 0 31).toNat = w.toNat % 2 ^ 31 := by
    rw [BitVec.extractLsb'_toNat, Nat.shiftRight_zero]
  bv_omega

/-- Settles O12: a pattern that is not truthy has `w[30:0] = 0`, which leaves the two zeros. -/
theorem truthyIsNonzero : Obligations.TruthyIsNonzero := by
  intro w
  constructor
  · rw [← Bool.not_eq_false, Ne, truthy_eq_false_iff]
  · rw [truthy_eq_false_iff, extractLsb'_magnitude_eq_zero_iff]

/-! One edge test (R52, R53) -/

/-- Settles O13: the test writes the one cell `wasHigh[i]`. -/
theorem edgeDetectCell : Obligations.EdgeDetectCell := by
  refine fun i v s => ⟨rfl, ?_, fun j hj => ?_, rfl⟩
  · rw [edgeDetect, putWasHigh_wasHigh, if_pos rfl]
  · rw [edgeDetect, putWasHigh_wasHigh, if_neg hj]

theorem reset_wasHigh (c : Channel) : State.reset.wasHigh[c] = false := Vector.getElem_replicate c.isLt

/-- From a low edge memory the test reports every truthy sample. -/
theorem edgeDetect_report_of_low {s : State} {c : Channel} (hlow : s.wasHigh[c] = false) (v : Word) :
    (edgeDetect c v s).1 = truthy v := by
  rw [edgeDetect, hlow, Bool.not_false, Bool.and_true]

/-- From a low edge memory FRAME toggles the gate of every truthy input, and of no other. -/
theorem gatesAfter_frame_of_low {s : State} {c : Channel} (hlow : s.wasHigh[c] = false) :
    (s.gatesAfter .frame)[c] = if truthy s.port.inp[c] then !s.gates[c] else s.gates[c] := by
  rw [gatesAfter_frame, hlow, Bool.not_false, Bool.and_true]
  cases truthy s.port.inp[c] with
  | false => exact Bool.xor_false _
  | true => exact Bool.xor_true _

/-- Settles O17: after reset every cell of the edge memory is low. -/
theorem firstSampleFires : Obligations.FirstSampleFires := by
  intro s c hreset
  have hlow : s.wasHigh[c] = false := by rw [hreset, reset_wasHigh]
  exact ⟨s.after .frame, exec_eq_after .frame s, edgeDetect_report_of_low hlow _, gatesAfter_frame_of_low hlow⟩

/-! The edges over a sequence of FRAMEs (R54) -/

theorem edgeReports_length (i : Channel) (frames : List (Bank Word)) (s : State) :
    (edgeReports i frames s).length = frames.length := by
  induction frames generalizing s with
  | nil => rfl
  | cons v vs ih => rw [edgeReports_cons, List.length_cons, ih, List.length_cons]

/-- Whether channel `i` is low when the FRAME at a position begins: at the first by the edge memory, later by the sample before. -/
def lowBefore (i : Channel) (frames : List (Bank Word)) (s : State) : Nat → Bool
  | 0 => !s.wasHigh[i]
  | j + 1 => (frames[j]?.map fun u : Bank Word => !truthy u[i]).getD true

/-- The edge memory after the first FRAME stands for that FRAME's sample. -/
theorem lowBefore_cons_succ (i : Channel) (v : Bank Word) (vs : List (Bank Word)) (s : State) (k : Nat) :
    lowBefore i (v :: vs) s (k + 1) = lowBefore i vs (s.afterFrame v) k := by
  cases k with
  | zero => exact congrArg not (s.afterFrame_wasHigh v i).symm
  | succ j => rfl

/-- From any edge memory, an edge is reported where the sample is truthy and the channel was low before. -/
theorem edgeReports_getElem? {i : Channel} {frames : List (Bank Word)} {k : Nat} {v : Bank Word}
    (hv : frames[k]? = some v) (s : State) :
    (edgeReports i frames s)[k]? = some (truthy v[i] && lowBefore i frames s k) := by
  induction frames generalizing k s with
  | nil => exact nomatch hv
  | cons u us ih =>
    rw [edgeReports_cons]
    cases k with
    | zero =>
      obtain rfl : u = v := Option.some.inj hv
      rfl
    | succ j => rw [List.getElem?_cons_succ, ih hv, lowBefore_cons_succ]

/-- Settles O18: the edge memory is low before the first FRAME, so the rule at each position is that of the statement. -/
theorem edgeAtEachRise : Obligations.EdgeAtEachRise := by
  refine fun i frames s hlow => ⟨edgeReports_length i frames s, fun k v hv => ?_⟩
  rw [edgeReports_getElem? hv]
  cases k with
  | zero => rw [lowBefore, hlow, Bool.not_false]
  | succ j => rfl

end Sys2Proof.Machine

namespace Sys2Proof.Machine

/-! Two edges on one channel (R60) -/

/-- Two rising edges restore the gate, however many FRAMEs lie between them. -/
theorem gate_restored_of_two_edges {c : Channel} {frames : List (Bank Word)} {s : State}
    (h : (edgeReports c frames s).count true = 2) :
    ∃ t, runFrames frames s = .next t ∧ t.gates[c] = s.gates[c] := by
  obtain ⟨t, hrun, -, -, -, hchannel⟩ := gateFlipsOncePerEdge frames s
  obtain ⟨hgate, -⟩ := hchannel c
  rw [h] at hgate
  exact ⟨t, hrun, hgate.trans (Bool.xor_false _)⟩

/-- From a low edge memory, the samples truthy, not truthy, truthy are reported as two edges. -/
theorem count_edgeReports_of_low {s : State} {c : Channel} {v₁ v₂ v₃ : Bank Word} (hlow : s.wasHigh[c] = false)
    (h₁ : truthy v₁[c] = true) (h₂ : truthy v₂[c] = false) (h₃ : truthy v₃[c] = true) :
    (edgeReports c [v₁, v₂, v₃] s).count true = 2 := by
  have hreports : edgeReports c [v₁, v₂, v₃] s = [true, false, true] := by
    simp only [edgeReports_cons, edgeReports_nil, State.afterFrame_wasHigh, hlow, h₁, h₂, h₃, Bool.not_true,
      Bool.not_false, Bool.and_self]
  rw [hreports]
  rfl

/-- A sample that is not truthy reports no edge and leaves the channel low. -/
theorem count_edgeReports_cons_of_falsy {s : State} {c : Channel} {v : Bank Word} (h : truthy v[c] = false)
    (vs : List (Bank Word)) :
    (edgeReports c (v :: vs) s).count true = (edgeReports c vs (s.afterFrame v)).count true := by
  rw [edgeReports_cons, h, Bool.false_and, List.count_cons_of_ne Bool.false_ne_true]

/-- Each edge takes two FRAMEs, a low one and a truthy one, but that an edge memory already low saves the first of them. -/
theorem two_mul_count_edgeReports_le (c : Channel) (frames : List (Bank Word)) (s : State) :
    2 * (edgeReports c frames s).count true + s.wasHigh[c].toNat ≤ frames.length + 1 := by
  induction frames generalizing s with
  | nil =>
    rw [edgeReports_nil, List.count_nil, List.length_nil, Nat.mul_zero]
    simpa using Bool.toNat_le s.wasHigh[c]
  | cons v vs ih =>
    have rest := ih (s.afterFrame v)
    rw [State.afterFrame_wasHigh] at rest
    rw [List.length_cons]
    cases hv : truthy v[c] with
    | false =>
      rw [count_edgeReports_cons_of_falsy hv]
      have := Bool.toNat_le s.wasHigh[c]
      omega
    | true =>
      rw [hv, Bool.toNat_true] at rest
      rw [edgeReports_cons, hv, Bool.true_and]
      cases s.wasHigh[c] with
      | false => rw [Bool.not_false, List.count_cons_self, Bool.toNat_false]; omega
      | true => rw [Bool.not_true, List.count_cons_of_ne Bool.false_ne_true, Bool.toNat_true]; omega

/-- Settles O20: both sequences report two edges, which flip the gate twice; fewer FRAMEs have no room for a low sample before each edge. -/
theorem doubleToggleRestores : Obligations.DoubleToggleRestores := by
  refine ⟨fun s c v₁ v₂ v₃ hlow h₁ h₂ h₃ => ?_, fun s c v₀ v₁ v₂ v₃ _ h₀ h₁ h₂ h₃ => ?_, fun s c frames h => ?_⟩
  · have hcount := count_edgeReports_of_low hlow h₁ h₂ h₃
    obtain ⟨t, hrun, hgate⟩ := gate_restored_of_two_edges hcount
    exact ⟨t, hrun, hgate, hcount⟩
  · have hlow : (s.afterFrame v₀).wasHigh[c] = false := (s.afterFrame_wasHigh v₀ c).trans h₀
    have hcount := (count_edgeReports_cons_of_falsy h₀ [v₁, v₂, v₃]).trans (count_edgeReports_of_low hlow h₁ h₂ h₃)
    obtain ⟨t, hrun, hgate⟩ := gate_restored_of_two_edges hcount
    exact ⟨t, hrun, hgate, hcount⟩
  · have bound := two_mul_count_edgeReports_le c frames s
    cases hhigh : s.wasHigh[c] with
    | false =>
      rw [if_neg Bool.false_ne_true]
      omega
    | true =>
      rw [hhigh, Bool.toNat_true] at bound
      rw [if_pos rfl]
      omega

/-! Toggle (R56) -/

theorem toggle_gates (i j : Channel) (s : State) :
    (toggle i s).gates[j] = if j = i then !s.gates[i] else s.gates[j] := putGate_gates s i j _

/-- Toggle writes gates alone, so it is undone once every gate is back. -/
theorem toggle_toggle (i : Channel) (s : State) : toggle i (toggle i s) = s := by
  refine State.sameBut.eq_of_banks (s := s) rfl rfl (fun _ => rfl) fun j => ?_
  rw [toggle_gates, toggle_gates, toggle_gates, if_pos rfl, Bool.not_not]
  by_cases h : j = i
  · rw [if_pos h, h]
  · rw [if_neg h, if_neg h]

/-- Settles O14: the one gate written takes the opposite of its value. -/
theorem toggleFlipsOneGate : Obligations.ToggleFlipsOneGate := fun i s =>
  ⟨(toggle_gates i i s).trans (if_pos rfl), fun j hj => (toggle_gates i j s).trans (if_neg hj), rfl, toggle_toggle i s⟩

/-! The commands of the gate latch array (R57 to R59) -/

theorem zext16_eq_ite (b : Bool) : zext16 b = if b then 1 else 0 := by
  cases b <;> rfl

theorem gatesAfter_resetGates (s : State) (c : Channel) : (s.gatesAfter .resetGates)[c] = false :=
  Vector.getElem_replicate c.isLt

theorem gatesAfter_randomizeGates (s : State) (c : Channel) :
    (s.gatesAfter .randomizeGates)[c] = s.port.rand.getLsbD c :=
  Vector.getElem_ofFn c.isLt

/-- A zero draw clears every gate, as RESET_GATES does, and the two commands write nothing else. -/
theorem after_randomizeGates_of_zero {s : State} (h : s.port.rand = 0) :
    s.after .randomizeGates = s.after .resetGates := by
  refine State.sameBut.eq_of_banks (s := s.withResp none) rfl rfl (fun _ => rfl) fun c => ?_
  rw [State.after_gates, State.after_gates, gatesAfter_randomizeGates, gatesAfter_resetGates, h]
  exact BitVec.getLsbD_zero

/-- Settles O23: the command leaves every field of the block, and its response is the gate's. -/
theorem readGateResult : Obligations.ReadGateResult := by
  intro s ch
  rw [← zext16_eq_ite]
  exact exec_eq_after (.readGate ch) s

/-- Settles O24: with every gate false, `invert` alone selects each output. -/
theorem resetGatesResult : Obligations.ResetGatesResult := by
  refine fun s => ⟨s.after .resetGates, exec_eq_after .resetGates s, rfl, fun i => ⟨gatesAfter_resetGates s i, ?_⟩⟩
  rw [State.out, State.after_gates, gatesAfter_resetGates, Bool.false_xor]
  rfl

/-- Settles O25: the command leaves in each gate its bit of the draw, and false in all of them where the draw is zero. -/
theorem randomizeGatesResult : Obligations.RandomizeGatesResult := by
  refine fun s => ⟨⟨s.after .randomizeGates, exec_eq_after .randomizeGates s, rfl, gatesAfter_randomizeGates s⟩, fun h => ?_⟩
  rw [exec_eq_after, exec_eq_after, after_randomizeGates_of_zero h]

end Sys2Proof.Machine

namespace Sys2Proof.Machine

/-! The channel voltage, by whether the gate differs from `invert` (R62, R66) -/

theorem State.out_of_eq {s : State} {i : Channel} (h : s.gates[i] = s.invert) : s.out i = 0x00000000 := by
  rw [State.out, h, Bool.xor_self]
  rfl

theorem State.out_of_ne {s : State} {i : Channel} (h : s.gates[i] ≠ s.invert) : s.out i = s.range :=
  if_pos (bne_iff_ne.mpr h)

theorem State.out_eq_zero_or_range (s : State) (i : Channel) : s.out i = 0x00000000 ∨ s.out i = s.range := by
  by_cases h : s.gates[i] = s.invert
  · exact .inl (State.out_of_eq h)
  · exact .inr (State.out_of_ne h)

/-- Flipping `invert` has the range at just the channels that had +0.0. -/
theorem State.out_withInvert_not (s : State) (i : Channel) :
    (s.withInvert (!s.invert)).out i = if s.gates[i] = s.invert then s.range else 0x00000000 := by
  by_cases h : s.gates[i] = s.invert
  · have differs : (s.withInvert (!s.invert)).gates[i] ≠ (s.withInvert (!s.invert)).invert :=
      h.trans_ne (Bool.not_ne_self _).symm
    rw [State.out_of_ne differs, if_pos h, State.withInvert_range]
  · have agrees : (s.withInvert (!s.invert)).gates[i] = (s.withInvert (!s.invert)).invert := Bool.eq_not.mpr h
    rw [State.out_of_eq agrees, if_neg h]

/-- Settles O36: the output is the range exactly where the gate and `invert` differ. -/
theorem outVoltage : Obligations.OutVoltage := by
  refine fun s i => ⟨fun hgate hinvert => ?_, fun hgate hinvert => ?_, fun hgate hinvert => ?_, fun hgate hinvert => ?_⟩
  · exact State.out_of_eq (hgate.trans hinvert.symm)
  · exact State.out_of_ne (by rw [hgate, hinvert]; decide)
  · exact State.out_of_ne (by rw [hgate, hinvert]; decide)
  · exact State.out_of_eq (hgate.trans hinvert.symm)

/-- Settles O37: +0.0 has its sign bit clear, so an output is negative only as a negative range. -/
theorem outMagnitude : Obligations.OutMagnitude := by
  refine fun s i => ⟨s.out_eq_zero_or_range i, fun hrange => ?_, s.out_withInvert_not i⟩
  obtain hout | hout := s.out_eq_zero_or_range i
  · rw [hout]
    exact BitVec.getLsbD_zero
  · rw [hout, hrange]

/-! The lights (R64, R65) -/

/-- Whatever an implementation supplies, `LIGHT_ON` lies above 1.0: a value that does not gives way to the default (R5). -/
theorem aboveOne_lightOn : aboveOne lightOn = true := by
  rw [lightOn]
  split
  case isTrue supplied => exact supplied
  case isFalse => decide

theorem State.light_congr {s t : State} (hgates : s.gates = t.gates) (i : Channel) : s.light i = t.light i := by
  rw [State.light, State.light, State.lightAt, State.lightAt, hgates]

/-- Settles O38: a light reads its gate and nothing else of the state. -/
theorem busWidthAndLights : Obligations.BusWidthAndLights :=
  ⟨of_decide_eq_true aboveOne_lightOn, fun _ i => ⟨rfl, rfl, fun _ => State.light_congr rfl i⟩⟩

/-! What the voltages and all the outputs read of the state (R65) -/

theorem State.out_congr {s t : State} (hgates : s.gates = t.gates) (hinvert : s.invert = t.invert)
    (hrange : s.range = t.range) (i : Channel) : s.out i = t.out i := by
  rw [State.out, State.out, hgates, hinvert, hrange]

/-- Settles O39: `OUT` reads gates, `invert` and `range`, `LIGHT` gates, `ERR_OUT` `err`, and the bus width no state. -/
theorem outputsOfVisibleState : Obligations.OutputsOfVisibleState :=
  fun _ _ hgates hinvert hrange herr =>
    ⟨rfl, herr, fun i => ⟨State.out_congr hgates hinvert hrange i, State.light_congr hgates i⟩⟩

/-! The commands of the settings (R67 to R69) -/

/-- Settles O26: to the outputs the command is the flip of `invert`, and the lights do not read that. -/
theorem toggleInvertResult : Obligations.ToggleInvertResult := by
  refine fun s => ⟨s.after .toggleInvert, exec_eq_after .toggleInvert s, rfl, fun i => ⟨?_, State.light_congr rfl i⟩⟩
  have flips : (s.after .toggleInvert).out i = (s.withInvert (!s.invert)).out i := State.out_congr rfl rfl rfl i
  rw [flips, State.out_withInvert_not]

/-- Settles O27: each of the two commands leaves `DATA` itself as the range. -/
theorem rangeAcceptedAsIs : Obligations.RangeAcceptedAsIs :=
  ⟨exec_eq_after .setRange, fun s g n m => ⟨s.after (.loadState g true n m), exec_eq_after _ s, rfl⟩⟩

end Sys2Proof.Machine

namespace Sys2Proof.Machine

/-! The commands of the snapshot (R70 to R73) -/

theorem packMask_getLsbD (b : Bank Bool) (i : Channel) : (packMask b).getLsbD i = b[i] :=
  (BitVec.getLsbD_eq_getElem i.isLt).trans (packMask_getElem b i i.isLt)

theorem rangeAfter_loadState (s : State) (g r : Bool) (n : Nat) (m : Mask) :
    s.rangeAfter (.loadState g r n m) = if r then s.port.data else s.range := by
  cases r <;> rfl

theorem gatesAfter_loadState (s : State) (g r : Bool) (n : Nat) (m : Mask) (i : Channel) :
    (s.gatesAfter (.loadState g r n m))[i] = if g ∧ i.val < min n 16 then m.getLsbD i else s.gates[i] := by
  cases g with
  | true => simpa [State.gatesAfter] using loadGates_gates s n m i
  | false => rfl

/-- A load that reaches all 16 gates leaves the bank its mask was packed from. -/
theorem gatesAfter_loadState_packMask (s : State) (r : Bool) (b : Bank Bool) :
    s.gatesAfter (.loadState true r 16 (packMask b)) = b := by
  ext c hc
  have loaded := gatesAfter_loadState s true r 16 (packMask b) ⟨c, hc⟩
  exact loaded.trans ((if_pos ⟨rfl, hc⟩).trans (packMask_getLsbD b ⟨c, hc⟩))

/-- Settles O28: the mask is the gates packed, and the response is the one field the command writes. -/
theorem saveStateResult : Obligations.SaveStateResult :=
  fun s => ⟨packMask s.gates, exec_eq_after .saveState s, packMask_getLsbD s.gates⟩

/-- Settles O29: the load leaves in the gates and in the range what it has for them, and writes no other field of the block. -/
theorem loadStateResult : Obligations.LoadStateResult :=
  fun s g r n m => ⟨s.after (.loadState g r n m), exec_eq_after _ s, rfl, rangeAfter_loadState s g r n m,
    gatesAfter_loadState s g r n m⟩

/-- Settles O32: the load writes the saved mask over all 16 gates and takes the saved range from `DATA`. -/
theorem snapshotRoundTrip : Obligations.SnapshotRoundTrip := by
  refine fun s => ⟨s.after .saveState, ⟨packMask s.gates, s.range⟩, exec_eq_after _ s, rfl, fun t hdata => ?_⟩
  have hrange : t.rangeAfter (.loadState true true 16 (packMask s.gates)) = s.range := hdata
  rw [exec_eq_after, State.after, gatesAfter_loadState_packMask, hrange]
  rfl

/-- Settles O33: the response is of the gates and the range alone, and a load passes `invert` on as it stands. -/
theorem invertOutsideSnapshot : Obligations.InvertOutsideSnapshot :=
  ⟨fun s b => ⟨s.after .saveState, (s.withInvert b).after .saveState, exec_eq_after _ s, exec_eq_after _ _, rfl⟩,
    fun s g r n m => ⟨s.after (.loadState g r n m), exec_eq_after _ s, rfl⟩,
    fun g r n m => ⟨State.reset.after (.loadState g r n m), exec_eq_after _ _, rfl⟩⟩

/-! The persisted document (R74) -/

theorem gbitsOf_getLsbD (elems : List Bool) (i : Channel) : (gbitsOf elems).getLsbD i = elems.getD i.val false :=
  (packMask_getLsbD _ i).trans (Vector.getElem_ofFn i.isLt)

/-- A document's count is clamped to the greatest its field holds (R39, R74). -/
theorem Document.instr_wf (d : Document) : WellFormed d.instr :=
  decide_eq_true (min_le_right _ 255)

/-- A transaction with a well-formed command's encoding on `CMD` has that command run, whatever the other ports hold. -/
theorem serve_of_cmd_eq_encode {tx : Transaction} {i : Instr} (hi : WellFormed i) (hcmd : tx.cmd = encode i) (who : Issuer)
    (s : State) : serve who tx s = .next ((s.accept who tx).after i) := by
  rw [serve_of_decode (hcmd ▸ decodeOfEncode i hi), exec_eq_after]

theorem serve_loadDocument (who : Issuer) (d : Document) (s : State) :
    serve who (loadDocument (some d)) s = .next ((s.accept who (loadDocument (some d))).after d.instr) :=
  serve_of_cmd_eq_encode d.instr_wf rfl who s

/-- With the document's range on `DATA`, the range is loaded where the document has one. -/
theorem rangeAfter_document {d : Document} {s : State} (hdata : s.port.data = d.range.getD Config.plusZero) :
    s.rangeAfter d.instr = d.range.getD s.range := by
  rw [Document.instr, rangeAfter_loadState, hdata]
  cases d.range <;> rfl

/-- A gate takes the element at its channel, where the document has one: the clamps of N to 255 and to 16 both lie beyond the
last channel. -/
theorem gatesAfter_document (d : Document) (s : State) (i : Channel) :
    (s.gatesAfter d.instr)[i] = ((d.gates.getD [])[i.val]?).getD s.gates[i] := by
  rw [Document.instr, gatesAfter_loadState, gbitsOf_getLsbD, List.getD_eq_getElem?_getD]
  cases d.gates with
  | none => rfl
  | some elems =>
    simp only [Option.getD_some, Option.isSome_some, true_and]
    split_ifs with hreach
    · have hlen : i.val < elems.length := by omega
      rw [List.getElem?_eq_getElem hlen, Option.getD_some, Option.getD_some]
    · have hlen : elems.length ≤ i.val := by omega
      rw [List.getElem?_eq_none hlen, Option.getD_none]

/-- Settles O34: the command carries a well-formed LOAD_STATE, so it runs as that; a missing document loads as one with neither field. -/
theorem documentLoad : Obligations.DocumentLoad := by
  refine ⟨fun d who s => ⟨_, serve_loadDocument who d s, rfl, rangeAfter_document rfl, gatesAfter_document d _⟩, fun who s => ?_⟩
  exact serve_loadDocument who ⟨none, none⟩ s

theorem savedDocument_gates_getElem? (b : Bank Bool) (w : Word) (i : Channel) :
    ((savedDocument ⟨packMask b, w⟩).gates.getD [])[i.val]? = some b[i] := by
  simp [savedDocument, unpackMask_packMask]

/-- Settles O35: a saved document has a range and an element for every channel, so a load of it writes both whole. -/
theorem documentRoundTrip : Obligations.DocumentRoundTrip := by
  intro who who' s
  have hsave := serve_of_cmd_eq_encode (tx := saveCommand) (i := .saveState) rfl rfl who s
  refine ⟨_, ⟨packMask s.gates, s.range⟩, hsave, rfl, fun t => ?_⟩
  obtain ⟨u, hserve, hframe, hrange, hgates⟩ := documentLoad.1 (savedDocument ⟨packMask s.gates, s.range⟩) who' t
  refine ⟨u, hserve, ?_, hrange, ?_, ?_, ?_⟩
  · ext c hc
    have loaded := hgates ⟨c, hc⟩
    rwa [savedDocument_gates_getElem?, Option.getD_some] at loaded
  · rw [hframe, State.accept_invert]
  · rw [hframe, State.accept_wasHigh]
  · rw [hframe, State.accept_err]

end Sys2Proof.Machine

namespace Sys2Proof.Machine

/-! The flag `err` over a step (R18, R76) -/

/-- The word the port accepts at the next step is illegal (R42). -/
def State.OffersIllegal (s : State) : Prop :=
  ∃ who tx why, s.offered = some (who, tx) ∧ decode tx.cmd = .illegal why

theorem not_offersIllegal_of_no_offer {s : State} (hoffer : s.offered = none) : ¬s.OffersIllegal :=
  fun ⟨_, _, _, hsome, _⟩ => Option.some_ne_none _ (hsome.symm.trans hoffer)

theorem not_offersIllegal_of_command {s : State} {who : Issuer} {tx : Transaction} {i : Instr}
    (hoffer : s.offered = some (who, tx)) (hdecode : decode tx.cmd = .command i) : ¬s.OffersIllegal := by
  rintro ⟨who', tx', why, hoffer', hillegal⟩
  cases hoffer.symm.trans hoffer'
  cases hdecode.symm.trans hillegal

/-- But for a power-on reset, only an illegal word writes `err`, and it sets it (R18, R76). -/
theorem State.StepsTo.err_iff {s t : State} (h : s.StepsTo t) (hpower : s.powersOn = false) :
    t.err = true ↔ s.err = true ∨ s.OffersIllegal := by
  cases h with
  | idle hoffer => exact (or_iff_left (not_offersIllegal_of_no_offer hoffer)).symm
  | powerOn _ hon => exact absurd (hpower.symm.trans hon) Bool.false_ne_true
  | command who tx i hoffer _ hdecode =>
    rw [State.after_err, State.taking_err, or_iff_left (not_offersIllegal_of_command hoffer hdecode)]
  | illegal who tx why hoffer _ hdecode => exact iff_of_true rfl (.inr ⟨who, tx, why, hoffer, hdecode⟩)

theorem State.StepsTo.err_of_powersOn {s t : State} (h : s.StepsTo t) (hpower : s.powersOn = true) :
    t.err = false := by
  cases h with
  | powerOn => rfl
  | idle _ hoff | command _ _ _ _ hoff | illegal _ _ _ _ hoff =>
    exact absurd (hoff.symm.trans hpower) Bool.false_ne_true

/-- Settles O7: an illegal word served raises IllegalCommand, and of the four kinds of step only that one sets `err`. -/
theorem illegalCommandEffect : Obligations.IllegalCommandEffect := by
  refine ⟨fun s who rest t later why ha hq hdecode => ?_, fun s hpower => ?_⟩
  · rw [step_of_issue ha hq, serve_of_illegal hdecode, raiseIllegalCommand_eq]
  · obtain ⟨t, hstep⟩ := everyCommandCompletes.2 s
    exact ⟨t, hstep, (stepsTo_of_step hstep).err_iff hpower⟩

/-! Runs without an illegal command (R76) -/

/-- What the port accepts was waiting in its issuer's queue (R32). -/
theorem mem_queue_of_offered {s : State} {who : Issuer} {tx : Transaction} (h : s.offered = some (who, tx)) :
    tx ∈ s.queue who := by
  obtain ⟨hnone, -⟩ | ⟨hnone, -⟩ | ⟨who', tx', later, -, -, hq, -, hoffer, -⟩ := step_cases s
  · exact absurd (h.symm.trans hnone) (Option.some_ne_none _)
  · exact absurd (h.symm.trans hnone) (Option.some_ne_none _)
  · cases hoffer.symm.trans h
    exact hq ▸ List.mem_cons_self

/-- No step puts a command into a queue: what waits after it waited before. -/
theorem queue_subset_of_step {s t : State} (h : step s = .next t) (who : Issuer) : t.queue who ⊆ s.queue who := by
  obtain ⟨-, ⟨-, hrealTime, hcontrol⟩ | ⟨taker, tx, -, htaken, -, hothers⟩⟩ := ownOrderKept s t h
  · have untouched : t.queue who = s.queue who := by
      cases who with
      | realTime => exact hrealTime
      | control => exact hcontrol
    exact untouched ▸ List.Subset.refl _
  · by_cases hwho : who = taker
    · subst hwho
      exact htaken ▸ List.subset_cons_self tx (t.queue who)
    · exact hothers who hwho ▸ List.Subset.refl _

theorem State.clean_iff (s : State) :
    s.clean ↔ s.err = false ∧ ∀ who, ∀ tx ∈ s.queue who, tx.legal = true := by
  refine and_congr_right fun _ => ⟨fun ⟨hrealTime, hcontrol⟩ who => ?_, fun h => ⟨h .realTime, h .control⟩⟩
  cases who with
  | realTime => exact hrealTime
  | control => exact hcontrol

theorem legal_eq_false_of_illegal {tx : Transaction} {why : IllegalReason} (h : decode tx.cmd = .illegal why) :
    tx.legal = false := by
  rw [Transaction.legal, h]

theorem not_offersIllegal_of_clean {s : State} (h : s.clean) : ¬s.OffersIllegal := by
  rintro ⟨who, tx, why, hoffer, hdecode⟩
  have legal : tx.legal = true := ((State.clean_iff s).mp h).2 who tx (mem_queue_of_offered hoffer)
  exact Bool.false_ne_true ((legal_eq_false_of_illegal hdecode).symm.trans legal)

/-- Settles O48: no step adds to a queue, and over legal words alone none sets `err`. -/
theorem cleanRunsStayClean : Obligations.CleanRunsStayClean := by
  intro s t hclean hstep
  obtain ⟨herr, hlegal⟩ := (State.clean_iff s).mp hclean
  refine (State.clean_iff t).mpr ⟨?_, fun who tx htx => hlegal who tx (queue_subset_of_step hstep who htx)⟩
  cases hpower : s.powersOn with
  | true => exact (stepsTo_of_step hstep).err_of_powersOn hpower
  | false =>
    refine Bool.eq_false_iff.mpr fun hset => ?_
    obtain hbefore | hillegal := ((stepsTo_of_step hstep).err_iff hpower).mp hset
    · exact Bool.false_ne_true (herr.symm.trans hbefore)
    · exact not_offersIllegal_of_clean hclean hillegal

/-! The issuers of commands (R82, R83) -/

/-- No command reads or writes who issued it. -/
theorem after_withGrant (i : Instr) (s : State) (who : Option Issuer) :
    (s.withGrant who).after i = (s.after i).withGrant who := by
  cases i with
  | loadState g r n gbits => cases g <;> cases r <;> rfl
  | _ => rfl

theorem runWord_of_decode {w : Word} {i : Instr} (h : decode w = .command i) (s : State) :
    runWord w s = .next (s.after i) := by
  rw [runWord, h]
  exact exec_eq_after i s

theorem runWord_of_illegal {w : Word} {why : IllegalReason} (h : decode w = .illegal why) (s : State) :
    runWord w s = .next (raiseIllegalCommand s) := by
  rw [runWord, h]

/-- Settles O45: no command reads or writes who issued it, and neither does IllegalCommand. -/
theorem issuerMakesNoDifference : Obligations.IssuerMakesNoDifference := by
  intro w s who
  cases h : decode w with
  | command i =>
    refine ⟨s.after i, runWord_of_decode h s, ?_⟩
    rw [runWord_of_decode h, after_withGrant]
  | illegal why => exact ⟨raiseIllegalCommand s, runWord_of_illegal h s, runWord_of_illegal h (s.withGrant who)⟩

/-- But for a power-on reset, a step that changes the edge memory runs a FRAME (R14). -/
theorem State.StepsTo.frame_of_wasHigh_ne {s t : State} (h : s.StepsTo t) (hpower : s.powersOn = false)
    (hchange : t.wasHigh ≠ s.wasHigh) : ∃ who tx, s.offered = some (who, tx) ∧ decode tx.cmd = .command .frame := by
  cases h with
  | idle => exact absurd rfl hchange
  | powerOn _ hon => exact absurd (hpower.symm.trans hon) Bool.false_ne_true
  | command who tx i hoffer _ hdecode =>
    have isFrame : i = .frame := by
      by_contra hi
      exact hchange ((wasHighAfter_of_ne_frame hi _).trans (State.taking_wasHigh s who tx))
    exact ⟨who, tx, hoffer, isFrame ▸ hdecode⟩
  | illegal who tx => exact absurd (State.taking_wasHigh s who tx) hchange

/-- Settles O52: a step that changes the edge memory runs a FRAME, which the control path does not issue. -/
theorem edgeMemoryFollowsRealTimePath : Obligations.EdgeMemoryFollowsRealTimePath := by
  intro s t hsplit hpower hstep hchange
  obtain ⟨who, tx, hoffer, hdecode⟩ := (stepsTo_of_step hstep).frame_of_wasHigh_ne hpower hchange
  have hcmd : tx.cmd = 0x10000000 := (encodeOfDecode tx.cmd .frame hdecode).1.symm
  cases who with
  | realTime => exact ⟨tx, hoffer, hcmd⟩
  | control =>
    have notFrame : tx.isFrame = false := hsplit.2 tx (mem_queue_of_offered hoffer)
    exact absurd hcmd (of_decide_eq_false notFrame)

end Sys2Proof.Machine

namespace Sys2Proof.Machine

/-! The edge memory at the first FRAME after a write of the gates (R90, R91) -/

/-- A gate toggles at a FRAME exactly when its sample is truthy and its edge memory is low (R49, R52). -/
theorem State.afterFrame_gates_eq_ite (s : State) (v : Bank Word) (c : Channel) :
    (s.afterFrame v).gates[c] = if truthy v[c] = true ∧ s.wasHigh[c] = false then !s.gates[c] else s.gates[c] := by
  rw [State.afterFrame_gates]
  cases truthy v[c] with
  | false => simp
  | true => cases s.wasHigh[c] <;> simp

/-- Settles O21: the load leaves the edge memory low, and from there FRAME toggles the loaded gate of each truthy input. -/
theorem firstFrameTogglesRestoredGate : Obligations.FirstFrameTogglesRestoredGate := by
  intro s g r n m v c hreset
  have hlow : (s.after (.loadState g r n m)).wasHigh[c] = false := by
    rw [State.after_wasHigh, wasHighAfter_of_ne_frame Instr.noConfusion, hreset, reset_wasHigh]
  exact ⟨s.after (.loadState g r n m), _, exec_eq_after _ s, exec_frame_withInputs _ v, gatesAfter_frame_of_low hlow⟩

/-- Settles O22: none of the three is FRAME, so the next FRAME finds the edge memory from before the write. -/
theorem edgeMemorySurvivesGateWrites : Obligations.EdgeMemorySurvivesGateWrites := by
  intro s i v c hi
  have notFrame : i ≠ .frame := by
    obtain rfl | rfl | ⟨g, r, n, m, rfl⟩ := hi <;> exact Instr.noConfusion
  have hkept : (s.after i).wasHigh = s.wasHigh := wasHighAfter_of_ne_frame notFrame s
  refine ⟨s.after i, (s.after i).afterFrame v, exec_eq_after i s, exec_frame_withInputs _ v, hkept, ?_⟩
  rw [State.afterFrame_gates_eq_ite, hkept]

/-! Power-on reset (R87, R88) -/

theorem reset_gates (c : Channel) : State.reset.gates[c] = false := Vector.getElem_replicate c.isLt

/-- Of the three kinds of step, only the power-on reset has that event at the head of the agenda. -/
theorem step_of_powersOn {s : State} (hpower : s.powersOn = true) :
    step s = .next (s.withAgenda s.agenda.tail).powerOn := by
  obtain ⟨-, hoff, -⟩ | ⟨-, -, hreset⟩ | ⟨-, -, -, -, -, -, hoff, -, -⟩ := step_cases s
  · exact absurd (hoff.symm.trans hpower) Bool.false_ne_true
  · exact hreset
  · exact absurd (hoff.symm.trans hpower) Bool.false_ne_true

/-- Settles O9: a step that is a power-on reset gives the block's fields the values they have at the start. -/
theorem powerOnReset : Obligations.PowerOnReset := by
  have banks : ∀ c : Channel, State.reset.wasHigh[c] = false ∧ State.reset.gates[c] = false :=
    fun c => ⟨reset_wasHigh c, reset_gates c⟩
  exact ⟨⟨banks, rfl, rfl, rfl⟩, fun s hpower => ⟨_, step_of_powersOn hpower, banks, rfl, rfl, rfl⟩⟩

theorem State.light_of_gate_false {s : State} {i : Channel} (h : s.gates[i] = false) : s.light i = 0x00000000 := by
  rw [State.light, State.lightAt, h]
  rfl

/-- Settles O40: at reset every gate is false and so is `invert`, so each output has +0.0 and each light is off. -/
theorem resetOutputs : Obligations.ResetOutputs :=
  ⟨fun i => ⟨State.out_of_eq (reset_gates i), State.light_of_gate_false (reset_gates i)⟩, rfl, rfl⟩

/-! The offer of a command (R32, R83) -/

theorem State.offer_err (s : State) (who : Issuer) (tx : Transaction) : (s.offer who tx).err = s.err :=
  s.withQueue_err who _

theorem State.offer_queue_same (s : State) (who : Issuer) (tx : Transaction) :
    (s.offer who tx).queue who = s.queue who ++ [tx] := s.withQueue_queue_same who _

theorem State.offer_queue_other (s : State) {who other : Issuer} (h : other ≠ who) (tx : Transaction) :
    (s.offer who tx).queue other = s.queue other := s.withQueue_queue_other h _

/-- What waits after an offer waited before it, or is the command offered. -/
theorem mem_queue_of_mem_queue_offer {s : State} {who other : Issuer} {tx tx' : Transaction}
    (h : tx' ∈ (s.offer who tx).queue other) : tx' ∈ s.queue other ∨ tx' = tx := by
  by_cases hother : other = who
  · subst hother
    rwa [State.offer_queue_same, List.mem_append, List.mem_singleton] at h
  · exact .inl (State.offer_queue_other s hother tx ▸ h)

/-- Settles O49: nothing waits at reset, and an offer adds its own command, a legal one, and leaves `err`. -/
theorem cleanAtReset : Obligations.CleanAtReset := by
  refine ⟨⟨rfl, List.forall_mem_nil _, List.forall_mem_nil _⟩, fun s who tx hclean hlegal => ?_⟩
  obtain ⟨herr, hwaiting⟩ := (State.clean_iff s).mp hclean
  refine (State.clean_iff _).mpr ⟨(s.offer_err who tx).trans herr, fun other tx' hmem => ?_⟩
  obtain hbefore | rfl := mem_queue_of_mem_queue_offer hmem
  · exact hwaiting other tx' hbefore
  · exact hlegal

end Sys2Proof.Machine
